-- ==== Sys2Proof/Word.lean ====
section
/-! DEFINITION. The word types of the KX-4800 and the one shape in which the model keeps sparse data. -/

namespace Sys2Proof

/-- A byte, the unit of every address of the device (R3). -/
abbrev Byte := BitVec 8
/-- A halfword: the unit of the code stream (R177). -/
abbrev Half := BitVec 16
/-- A 32-bit word: address, event and most special registers, and every BAR0 register. -/
abbrev W32 := BitVec 32
/-- A 64-bit word: scalar and view registers (R198, R203). -/
abbrev W64 := BitVec 64

/-- Sparse data by number: (key, value) pairs with keys strictly rising and no value equal to what an unlisted key
reads as.  Every register set, memory and table of the model is one of these; its operations and the canonical form are
in Machine/Bits.lean.  A memory is a `Table Byte`, which is a list of `Host.Cell`. -/
abbrev Table (α : Type) := List (Nat × α)

end Sys2Proof
end

