-- ==== Sys2Proof/Syntax.lean ====
section
/-! DEFINITION. The steps of the KX-4800: one constructor per row of spec/opcode_table.json.  A row that a slot of a
bundle encodes (12_encoding.md) carries the fields of its encoding; a row that is an event of the package carries what
names it, and what the outside world supplies with it. -/

namespace Sys2Proof

/-- GUARD (R342): bit 3 is NEG, bits [2:0] name a predicate. -/
structure Guard where
  neg : Bool
  p   : BitVec 3
deriving DecidableEq, Repr

/-- A V-slot source position that names a tile, a queue entry or the held operand (R344). -/
inductive VSrc where
  | tile (hold : Bool) (n : BitVec 6)
  | queue (hold : Bool) (n : BitVec 3)
  | held
deriving DecidableEq, Repr

/-- A V-slot position that may hold a scalar register instead (SBS or SCS of R408). -/
inductive VOp where
  | src (v : VSrc)
  | scalar (s : BitVec 5)
deriving DecidableEq, Repr

/-- The amount of VROTR, VROTC, VBCR and VBCC: an immediate in OPX or a scalar (R429, R430). -/
inductive VAmt where
  | imm (n : BitVec 6)
  | scalar (s : BitVec 5)
deriving DecidableEq, Repr

/-- What every V-slot instruction carries beside its operands: its slot (V0, or V1 when set) and its guard. -/
structure VHdr where
  v1 : Bool
  g  : Guard
deriving DecidableEq, Repr

/-- The timing field of an engine command (R345): `cycle=now`, a start field in a scalar, or a start field. -/
inductive Timing where
  | now
  | reg (s : BitVec 5)
  | start (s : BitVec 20)
deriving DecidableEq, Repr

/-- The address fields B, A, AN and PI of an M-slot instruction (R457). -/
structure Ea where
  b  : BitVec 5
  a  : BitVec 4
  an : Bool
  pi : Bool
deriving DecidableEq, Repr

/-- What MSEND and MRECV move: the footprint of a view, or scratchpad lines named by %sDR (R471). -/
inductive MeshPay where
  | tile (v : BitVec 6)
  | lines (dr : BitVec 5)
deriving DecidableEq, Repr

/-- A packet as taken from its slot (R117): its queue, its sequence number and its 64 bytes; the model's own number of it, since
a sequence number comes again (R118); and, for a RESUME, that it has waited for a field to be PARKED or EVICTED (R142). -/
structure Pkt where
  q      : Nat
  seq    : Nat
  bytes  : List Byte
  id     : Nat
  waited : Bool
deriving DecidableEq, Repr

/-- What the self-test of bring-up stage 2 finds, in the units of R34. -/
inductive Finding where
  | ioDie
  | l2Slice
  | tile (t : BitVec 8)
  | row (t : BitVec 8) (r : Nat)
  | column (t : BitVec 8) (c : Nat)
  | bank (pch : BitVec 9) (b : BitVec 4)
deriving DecidableEq, Repr

/-- What device firmware supplies in bring-up stage 3 (R136): the built-in micro-words (R133), the system code store
and system dictionary (R327).  The spec gives none of their contents, so they come from outside with the step. -/
structure FwSupply where
  micro   : List (BitVec 128)
  starts  : List Byte
  sysCode : List Half
  sysDict : List Byte
deriving DecidableEq, Repr

/-- Where an uncorrectable error stands (R34, R131): the class, the tile, pseudo-channel and bank it lies in, and the
address within the structure.  Class 0x05 is two structures: `code` when it is the code buffer, not the dictionary. -/
structure ErrSite where
  cls   : BitVec 8
  tile  : BitVec 8
  pch   : BitVec 9
  bank  : BitVec 4
  code  : Bool
  /-- the failing physical array row, or with `true` column, of class 0x01 -/
  line  : Bool × Nat
  /-- for HBM4 and bank-unit errors: the context whose access met it, as a tile and a hardware context -/
  who   : Option (BitVec 8 × BitVec 2)
  addr  : W64
deriving DecidableEq, Repr

/-- What link training found on one port (R54): the published latency, the active lanes, the failed-lane bitmap, the
neighbour's TOR_COORD and whether the cabling joins the ports of R47; sixteenths of a cycle, those of the link and those that the
neighbour carries from its way to the root (R57); and of the rest of the torus, how many other packages have ROOT set and the
coordinates of one (R53, R57). -/
structure Training where
  lat   : BitVec 12
  lanes : BitVec 5
  bad   : Half
  peer  : BitVec 15
  cabled : Bool
  frac  : BitVec 4
  carry : BitVec 4
  roots : Nat
  root  : BitVec 15
deriving DecidableEq, Repr

/-- A link trains at 16 or 12 lanes, with a latency of 64 cycles or more (R48, R54). -/
def Training.ok (r : Training) : Bool := decide (64 ≤ r.lat.toNat) && (r.lanes == 16 || r.lanes == 12)

/-- A domain of a field on this package (R165): its level, the number of its container and its id. -/
structure DomKey where
  field : Nat
  level : Nat
  cont  : Nat
  id    : Nat
deriving DecidableEq, Repr

/-- The three engines of a tile that hold commands (R208). -/
inductive Engine where
  | array | mesh | link
deriving DecidableEq, Repr

/-- Where a data flit stands: its slot in its frame (R51), and which flit of its transfer it is (log entry 2). -/
structure FlitPlace where
  slot : Nat
  pos  : Nat
deriving DecidableEq, Repr

/-- What a write of the register window carries: 4 bytes, or 8 bytes as the word at the lower offset and the word above it (R111). -/
structure BarData where
  low  : W32
  high : Option W32
deriving DecidableEq, Repr

/-- A command that asks other packages for bytes, and the bytes that have come back: whether they have come is for another package
to say (log entry 2). -/
structure Answer where
  id     : Nat
  remote : Table Byte
deriving DecidableEq, Repr

inductive Instr where
  -- the package, its power and its lifetime records (01_package.md, 04_host.md)
  | selfTest (fs : List Finding)
  | bringupConfig (fw : FwSupply)
  -- the readings that changed when the sensors were read (R18)
  | tempSample (changed : List (Nat × Int))
  | droopWarning (die : BitVec 2)
  | droopFailure (die : BitVec 2)
  | uncorrectableError (e : ErrSite)
  | controlStoreError (pch : BitVec 9) (corrected : Bool)
  | colBudgetWrite (v : W32)
  | passAnswer (tile : BitVec 8) (hw : BitVec 2) (id : Nat)
  -- torus links and global time (02_torus.md)
  | portTrainingDone (port : BitVec 3) (r : Training)
  | torHopWrite (v : W32)
  | timeFlitReceive (port : BitVec 3) (flit : Option (List Byte)) (corrected : Nat)
  | dataFlitReceive (port : BitVec 3) (at_ : FlitPlace) (flit : Option (List Byte))
  | portRetrain (port : BitVec 3)
  | linkTransferStart (tile : BitVec 8) (id : Nat)
  | lsendComplete (tile : BitVec 8) (id : Nat)
  | lrecvComplete (tile : BitVec 8) (id : Nat)
  | lredComplete (tile : BitVec 8) (id : Nat)
  | lbcstComplete (tile : BitVec 8) (id : Nat)
  -- bank units (03_bank_units.md)
  | bcallArrive (id : Nat)
  | callStart (pch : BitVec 9) (id : Nat)
  | microwordStep (pch : BitVec 9) (ecc : Option (BitVec 4 × Nat))
  | hbmStandardAccess (pch : BitVec 9) (bank : BitVec 4) (row : Nat) (ecc : Bool) (who : Option (BitVec 8 × BitVec 2)) (addr : W64)
  -- the host port and the work queues (04_host.md)
  | bar0BadAccess (off : Nat) (len : Nat)
  | registerWrite (off : BitVec 26) (v : BarData)
  | qCtlWrite (q : BitVec 10) (v : W32)
  | qReset (q : BitVec 10) (v : W32)
  | qKick (q : BitVec 10) (v : W32)
  | slotRead (q : BitVec 10)
  | sealTimeout (q : BitVec 10)
  | packetStart (q : BitVec 10)
  | copyComplete (id : Nat) (remote : Table Byte)
  | evHostWrite (n : BitVec 12) (v : W32)
  | stagingRead (off : BitVec 30) (len : Nat)
  | stagingWrite (off : BitVec 30) (bytes : List Byte)
  | fqConsWrite (v : W32)
  -- fields and the scheduler (05_scheduler.md)
  | imageLoaded (field : Half) (remote : Table Byte)
  | fieldStart (field : Half)
  | freeze (field : Half)
  | fieldQuiet (field : Half)
  | savesComplete (field : Half)
  | restoreComplete (field : Half)
  | fieldResume (field : Half)
  | windowDrowsy (tile : BitVec 8) (hw : BitVec 2)
  | fieldComplete (field : Half)
  | noticePlaced (port : BitVec 3) (flit : List Byte)
  | noticeFreeze (port : BitVec 3) (flit : List Byte)
  | noticeResume (port : BitVec 3) (flit : List Byte)
  | noticeArrived (port : BitVec 3) (flit : List Byte)
  | noticeDone (port : BitVec 3) (flit : List Byte)
  | arrivedNoticeResend (d : DomKey)
  | phaseRelease (d : DomKey)
  -- the tile core and its engines (06_tile_core.md to 11_traps.md)
  | resultLanding (tile : BitVec 8) (hw : BitVec 2) (id : Nat)
  | reportedTrapTake (tile : BitVec 8) (hw : BitVec 2)
  | protViolationReport (id : Nat)
  | uiEntry (tile : BitVec 8) (hw : BitVec 2)
  | engineStart (tile : BitVec 8) (eng : Engine) (id : Nat)
  | streamRowAdmit (tile : BitVec 8) (id : Nat) (row : Nat)
  | accumulatorLanding (tile : BitVec 8) (id : Nat) (row pass lane : Nat)
  | planeWrite (tile : BitVec 8) (id : Nat)
  | drainWrite (tile : BitVec 8) (id : Nat)
  | aclrWrite (tile : BitVec 8) (id : Nat)
  | meshBeatSend (tile : BitVec 8) (id : Nat) (beat : Nat)
  | meshBeatReceive (tile : BitVec 8) (id : Nat) (beat : Nat)
  | homeSliceStoreAccept (id : Nat)
  | globalLoadComplete (id : Nat) (remote : Table Byte)
  | atomicArrive (id : Nat) (remote : Table Byte)
  | faultBatchClose (die : BitVec 2)
  | fenceComplete (id : Nat)
  | cpyComplete (id : Nat) (remote : Table Byte)
  | cpyzComplete (id : Nat) (remote : Table Byte)
  | wstoreComplete (id : Nat)
  | cbstComplete (id : Nat)
  | hintComplete (x : Answer)
  | tlbInvalidateDone (id : Nat)
  | csaveComplete (id : Nat)
  | cloadComplete (x : Answer)
  -- the S slot (13_isa_scalar.md)
  | addReg (g : Guard) (d a b : BitVec 5)
  | addImm (g : Guard) (d a : BitVec 5) (imm : BitVec 42)
  | subReg (g : Guard) (d a b : BitVec 5)
  | subImm (g : Guard) (d a : BitVec 5) (imm : BitVec 42)
  | mulReg (g : Guard) (d a b : BitVec 5)
  | mulImm (g : Guard) (d a : BitVec 5) (imm : BitVec 42)
  | mulhReg (g : Guard) (d a b : BitVec 5)
  | mulhImm (g : Guard) (d a : BitVec 5) (imm : BitVec 42)
  | andReg (g : Guard) (d a b : BitVec 5)
  | andImm (g : Guard) (d a : BitVec 5) (imm : BitVec 42)
  | orReg (g : Guard) (d a b : BitVec 5)
  | orImm (g : Guard) (d a : BitVec 5) (imm : BitVec 42)
  | xorReg (g : Guard) (d a b : BitVec 5)
  | xorImm (g : Guard) (d a : BitVec 5) (imm : BitVec 42)
  | shlReg (g : Guard) (d a b : BitVec 5)
  | shlImm (g : Guard) (d a : BitVec 5) (imm : BitVec 42)
  | shrReg (g : Guard) (d a b : BitVec 5)
  | shrImm (g : Guard) (d a : BitVec 5) (imm : BitVec 42)
  | sraReg (g : Guard) (d a b : BitVec 5)
  | sraImm (g : Guard) (d a : BitVec 5) (imm : BitVec 42)
  | minReg (g : Guard) (d a b : BitVec 5)
  | minImm (g : Guard) (d a : BitVec 5) (imm : BitVec 42)
  | maxReg (g : Guard) (d a b : BitVec 5)
  | maxImm (g : Guard) (d a : BitVec 5) (imm : BitVec 42)
  | bitc (g : Guard) (d a : BitVec 5) (fn : BitVec 6)
  | li (g : Guard) (d : BitVec 5) (imm : BitVec 48)
  | cmpReg (g : Guard) (pd : BitVec 3) (cc : BitVec 4) (a b : BitVec 5)
  | cmpImm (g : Guard) (pd : BitVec 3) (cc : BitVec 4) (a : BitVec 5) (imm : BitVec 39)
  | plog (g : Guard) (pd : BitVec 3) (tt : BitVec 4) (pa pb : Guard)
  | sel (g : Guard) (d : BitVec 5) (ps : Guard) (a b : BitVec 5)
  | br (g : Guard) (cc : BitVec 4) (a : BitVec 5) (target : BitVec 15)
  | jmpLabel (g : Guard) (target : BitVec 15)
  | jmpReg (g : Guard) (a : BitVec 5)
  | callLabel (g : Guard) (target : BitVec 15)
  | callReg (g : Guard) (a : BitVec 5)
  | ret (g : Guard) (a : BitVec 5)
  | loopReg (g : Guard) (a : BitVec 5) (endPc : BitVec 15)
  | loopImm (g : Guard) (n : BitVec 16) (endPc : BitVec 15)
  | lbrk (g : Guard) (k : BitVec 16)
  | waitImm (g : Guard) (e : BitVec 4) (imm : W32)
  | waitReg (g : Guard) (e : BitVec 4) (s : BitVec 5)
  | waitTcyc (g : Guard) (s : BitVec 5)
  | phase (g : Guard) (slot : BitVec 3)
  | pass (g : Guard) (d : BitVec 5) (req : W32)
  | passCycleReg (g : Guard) (d : BitVec 5) (req : W32) (s : BitVec 5)
  | yield (g : Guard)
  | yieldField (g : Guard)
  | view (g : Guard) (t : BitVec 6) (s : BitVec 5)
  | viewCopy (g : Guard) (t m : BitVec 6)
  | viewBase (g : Guard) (t : BitVec 6) (s : BitVec 5) (imm : W32)
  | viewGen (g : Guard) (t : BitVec 6) (gen : Byte)
  | gets (g : Guard) (d : BitVec 5) (sel : BitVec 12)
  | setsReg (g : Guard) (sel : BitVec 12) (s : BitVec 5)
  | setsImm (g : Guard) (sel : BitVec 12) (imm : W32)
  | setsOr (g : Guard) (sel : BitVec 12) (imm : W32)
  | setsClr (g : Guard) (sel : BitVec 12) (imm : W32)
  | trap (g : Guard) (k : Half)
  | tret (g : Guard)
  | uiret (g : Guard)
  | done (g : Guard)
  -- the G slot
  | aaddReg (g : Guard) (d a : BitVec 4) (s : BitVec 5)
  | aaddImm (g : Guard) (d a : BitVec 4) (imm : BitVec 30)
  | ali (g : Guard) (d : BitVec 4) (imm : W32)
  | amovToA (g : Guard) (a : BitVec 4) (s : BitVec 5)
  | amovToS (g : Guard) (s : BitVec 5) (a : BitVec 4)
  | acfgLin (g : Guard) (a : BitVec 4) (inc : Half)
  | acfgMod (g : Guard) (a : BitVec 4) (s : BitVec 5) (inc : Half)
  | acfgBrev (g : Guard) (a : BitVec 4) (s : BitVec 5) (inc : Half)
  | lidx (g : Guard) (a : BitVec 4) (t : BitVec 6) (s : BitVec 5)
  | pf (g : Guard) (q : BitVec 3) (t : BitVec 6)
  -- the V slots (14_isa_vector.md)
  | vadd (h : VHdr) (d : BitVec 6) (a : VSrc) (b : VOp) (rf : BitVec 2) (sat : Bool)
  | vsub (h : VHdr) (d : BitVec 6) (a : VSrc) (b : VOp) (rf : BitVec 2) (sat : Bool)
  | vmul (h : VHdr) (d : BitVec 6) (a : VSrc) (b : VOp) (rf : BitVec 2) (sat : Bool)
  | vfma (h : VHdr) (d : BitVec 6) (a : VSrc) (b c : VOp) (rf : BitVec 2) (sat : Bool)
  | vmin (h : VHdr) (d : BitVec 6) (a : VSrc) (b : VOp)
  | vmax (h : VHdr) (d : BitVec 6) (a : VSrc) (b : VOp)
  | vdiv (h : VHdr) (d : BitVec 6) (a : VSrc) (b : VOp) (rf : BitVec 2) (sat : Bool)
  | vsqrt (h : VHdr) (d : BitVec 6) (a : VSrc) (rf : BitVec 2) (sat : Bool)
  | vrsq (h : VHdr) (d : BitVec 6) (a : VSrc) (rf : BitVec 2) (sat : Bool)
  | vexp2 (h : VHdr) (d : BitVec 6) (a : VSrc) (rf : BitVec 2) (sat : Bool)
  | vlog2 (h : VHdr) (d : BitVec 6) (a : VSrc) (rf : BitVec 2) (sat : Bool)
  | vcvt (h : VHdr) (d : BitVec 6) (a : VSrc) (rf : BitVec 2) (sat : Bool)
  | vmov (h : VHdr) (d : BitVec 6) (a : VSrc)
  | vsplat (h : VHdr) (d : BitVec 6) (s : BitVec 5) (rf : BitVec 2) (sat : Bool)
  | vsel (h : VHdr) (d : BitVec 6) (m : VSrc) (a b : VOp)
  | vand (h : VHdr) (d : BitVec 6) (a : VSrc) (b : VOp)
  | vor (h : VHdr) (d : BitVec 6) (a : VSrc) (b : VOp)
  | vxor (h : VHdr) (d : BitVec 6) (a : VSrc) (b : VOp)
  | vshlTile (h : VHdr) (d : BitVec 6) (a b : VSrc) (sat : Bool)
  | vshlScalar (h : VHdr) (d : BitVec 6) (a : VSrc) (s : BitVec 5) (sat : Bool)
  | vshlImm (h : VHdr) (d : BitVec 6) (a : VSrc) (n : BitVec 6) (sat : Bool)
  | vshrTile (h : VHdr) (d : BitVec 6) (a b : VSrc) (u : Bool)
  | vshrScalar (h : VHdr) (d : BitVec 6) (a : VSrc) (s : BitVec 5) (u : Bool)
  | vshrImm (h : VHdr) (d : BitVec 6) (a : VSrc) (n : BitVec 6) (u : Bool)
  | vcmp (h : VHdr) (d : BitVec 6) (a : VSrc) (b : VOp) (cc : BitVec 4)
  | vmskPre (h : VHdr) (d : BitVec 6) (n : BitVec 11)
  | vmskRect (h : VHdr) (d : BitVec 6) (nr : BitVec 5) (nc : BitVec 7)
  | vmskRng (h : VHdr) (d : BitVec 6) (s : BitVec 5)
  | vpop (h : VHdr) (d : BitVec 5) (a : VSrc)
  | vextImm (h : VHdr) (d : BitVec 5) (a : VSrc) (k : BitVec 10)
  | vextReg (h : VHdr) (d : BitVec 5) (a : VSrc) (s : BitVec 5)
  | vrotr (h : VHdr) (d : BitVec 6) (a : VSrc) (n : VAmt)
  | vrotc (h : VHdr) (d : BitVec 6) (a : VSrc) (n : VAmt)
  | vbcr (h : VHdr) (d : BitVec 6) (a : VSrc) (n : VAmt)
  | vbcc (h : VHdr) (d : BitVec 6) (a : VSrc) (n : VAmt)
  | vshuf (h : VHdr) (d : BitVec 6) (a b : VSrc)
  | vredr (h : VHdr) (d : BitVec 6) (a : VSrc) (op : BitVec 2) (bc : Bool) (rf : BitVec 2) (sat : Bool)
  | vredc (h : VHdr) (d : BitVec 6) (a : VSrc) (op : BitVec 2) (bc : Bool) (rf : BitVec 2) (sat : Bool)
  | vshpType (h : VHdr) (d : BitVec 6) (ty rows : BitVec 4) (cols : BitVec 6)
  | vshpKeep (h : VHdr) (d : BitVec 6) (rows : BitVec 4) (cols : BitVec 6)
  | vshpReg (h : VHdr) (d : BitVec 6) (s : BitVec 5)
  | vqlt (h : VHdr) (d : BitVec 6) (a : VSrc) (cb : BitVec 4) (ntm1 : BitVec 2) (sr : Bool)
  | vqltOffsets (h : VHdr) (d : BitVec 6) (a b : VSrc) (cb : BitVec 4) (ntm1 : BitVec 2) (sr : Bool)
  | vboff (h : VHdr) (d : BitVec 6) (a : VSrc) (cb : BitVec 4)
  -- the A slot (15_isa_array.md)
  | amodeNorm (g : Guard)
  | amodeSplit (g : Guard)
  | wload (g : Guard) (slot : BitVec 9) (pl : Bool) (cb term : BitVec 4) (tm : Timing)
  | wloadg (g : Guard) (n : BitVec 6) (h : BitVec 2) (pl : Bool) (term : BitVec 4) (ob : Byte) (tm : Timing)
  | wloadgImg (g : Guard) (n : BitVec 6) (h : BitVec 2) (pl : Bool) (tm : Timing)
  | stream (g : Guard) (sr : BitVec 5) (rm km nm : Option (BitVec 6)) (tm : Timing)
  | streamt (g : Guard) (sr : BitVec 5) (rm km nm : Option (BitVec 6)) (tm : Timing)
  | drain (g : Guard) (d e0 : BitVec 6) (l0 : BitVec 4) (q : BitVec 6) (cv sc : BitVec 2) (turn sat : Bool) (tm : Timing)
  | aclr (g : Guard) (e0 nm1 : BitVec 6)
  | wstore (g : Guard) (v : BitVec 6) (s : BitVec 5) (e : BitVec 4)
  | wstorePlane (g : Guard) (v : BitVec 6) (h : BitVec 2) (pl : Bool) (e : BitVec 4)
  | cbld (g : Guard) (cb : BitVec 4) (first cntm1 : Byte) (v : BitVec 6)
  | cbldRestore (g : Guard) (cb : BitVec 4) (v : BitVec 6)
  | cbflip (g : Guard) (cb : BitVec 4)
  | cbst (g : Guard) (cb : BitVec 4) (v : BitVec 6) (e : BitVec 4)
  -- the M slot (16_isa_memory.md)
  | lds (g : Guard) (d : BitVec 5) (ea : Ea) (sp : Bool) (z : BitVec 2) (sx : Bool) (e : BitVec 4) (fv : Option (BitVec 6))
  | sts (g : Guard) (d : BitVec 5) (ea : Ea) (sp : Bool) (z : BitVec 2) (e : BitVec 4) (fv : Option (BitVec 6))
  | tld (g : Guard) (v : BitVec 6) (ea : Ea) (sp : Bool) (p : BitVec 5) (e : BitVec 4) (fv : Option (BitVec 6)) (lu : Bool)
  | tst (g : Guard) (v : BitVec 6) (ea : Ea) (sp : Bool) (p : BitVec 5) (e : BitVec 4) (fv : Option (BitVec 6))
  | atom (g : Guard) (d : BitVec 5) (ea : Ea) (z : Bool) (opc : BitVec 4) (s1 s2 : BitVec 5) (e : BitVec 4) (fv : Option (BitVec 6))
  | atomt (g : Guard) (v : BitVec 6) (ea : Ea) (p : BitVec 5) (opc : BitVec 3) (e : BitVec 4) (fv : Option (BitVec 6))
  | stash (g : Guard) (k : BitVec 2) (ssz gsz : BitVec 4) (ds : BitVec 3) (gs : BitVec 5) (sline : BitVec 13)
  | stashOff (g : Guard) (k : BitVec 2)
  | hintReq (g : Guard) (ea : Ea) (cnt : Byte) (ev : Option (BitVec 4))
  | hintFill (g : Guard) (ea : Ea) (cnt : Byte) (ev : Option (BitVec 4))
  | hintDrop (g : Guard) (ea : Ea) (cnt : Byte) (ev : Option (BitVec 4))
  | hintL2 (g : Guard) (ea : Ea) (cnt : Byte) (ev : Option (BitVec 4))
  | cpy (g : Guard) (dr : BitVec 5) (ssp dsp : BitVec 2) (e : BitVec 4) (ui : Bool) (d : BitVec 5)
  | cpyzSt (g : Guard) (v : BitVec 6) (dr i : BitVec 5) (e : BitVec 4) (ui : Bool) (d : BitVec 5)
  | cpyzLd (g : Guard) (v : BitVec 6) (dr i : BitVec 5) (e : BitVec 4) (ui : Bool) (d : BitVec 5)
  | msend (g : Guard) (port : BitVec 2) (pay : MeshPay) (tm : Timing)
  | mrecv (g : Guard) (port : BitVec 2) (pay : MeshPay) (tm : Timing)
  | lsend (g : Guard) (dr d : BitVec 5) (e : BitVec 4) (tm : Timing)
  | lrecv (g : Guard) (dr d : BitVec 5) (e : BitVec 4) (tm : Timing)
  | lred (g : Guard) (dr d : BitVec 5) (e : BitVec 4) (tm : Timing)
  | lbcst (g : Guard) (dr d : BitVec 5) (e : BitVec 4) (tm : Timing)
  | bcall (g : Guard) (c a : BitVec 5) (e : BitVec 4)
  | fence (g : Guard) (x y : BitVec 5) (e : BitVec 4)
  | vjoin (g : Guard)
  | tlbinv (g : Guard) (gs n : BitVec 5) (e : BitVec 4)
  | tlbinvDie (g : Guard) (gs : BitVec 5) (e : BitVec 4)
  | csaveCtx (g : Guard) (c : BitVec 2) (gs : BitVec 5) (e : BitVec 4)
  | csaveTile (g : Guard) (gs : BitVec 5) (e : BitVec 4)
  | csaveBlk (g : Guard) (gs dr : BitVec 5) (e : BitVec 4)
  | csaveCode (g : Guard) (gs : BitVec 5) (e : BitVec 4)
  | cloadCtx (g : Guard) (c : BitVec 2) (gs : BitVec 5) (e : BitVec 4)
  | cloadTile (g : Guard) (gs : BitVec 5) (e : BitVec 4)
  | cloadBlk (g : Guard) (gs dr : BitVec 5) (e : BitVec 4)
  | cloadCode (g : Guard) (gs : BitVec 5) (e : BitVec 4)
  -- rows that the table gives last
  | correctedError (structure_ : Nat) (pch : BitVec 9) (bank : BitVec 4)
  | atomicComplete (id : Nat)
  -- steps whose operands stand in State: the packet that is starting (Pkt), the sequencer that acts, or none at all
  | powerOnReset
  | powerLoss
  | bootImageCheck
  | colWindowStart
  | scorebookSecondTick
  | scorebookCommit
  | sbDataloRead
  | sbSnap
  | snapshotDone
  | torTrain
  | timeBaseStart
  | torTimeloRead
  | frameDeparture
  | callEnd
  | refreshBreak
  | sessionTimeout
  | abmEnter
  | abmExit
  | matvec16
  | axpy32
  | norm2
  | optClip
  | optTrust
  | req4
  | devShutdown
  | devReset
  | devCommitsvn
  | functionLevelReset
  | launch
  | park
  | resume
  | evict
  | pair
  | eventSetWrite
  | eventSetAdd
  | eventWait
  | eventWaitMet
  | copy
  | fencePacket
  | fwloadDevice
  | fwloadBankUnit
  | queryDevice
  | queryAttestation
  | queryFieldState
  | mailboxDone
  | faultRecordWrite
  | schedulerDecision
  | emptyBundle
  | orderlyShutdownComplete
deriving DecidableEq, Repr

end Sys2Proof
end

