-- ==== Sys2Proof/Config.lean ====
section
/-! DEFINITION. What the spec leaves open and the model leaves free: constants with no body, so that no proof can see
what they are.  A value that may differ at each use is applied to a draw counter of State (log entry 1). -/

namespace Sys2Proof.Config

/-- A free number for the n-th open choice of a run (log entry 1). -/
opaque free : Nat → Nat

/-- Which of several commands a TIMING trap names, by device cycle: R321 says which command `is concerned` only where there
is one (log entry 11). -/
opaque concerned : Nat → Nat

/-- What a bank unit gives where R86 to R93 state no value, by an occasion or the operands and a place (log entry 12). -/
opaque unitOpen : Nat → Nat → Nat

/-- DEV_ID.STEP: the stepping of the part (R112 gives no number). -/
opaque devStep : W32

/-- The part's own keys: the public key of its device identity, and the public key of its manufacture (R134). -/
opaque identityKey : List Byte
opaque mfgKey : List Byte

/-- ML-DSA-44 signing with the manufacturing key (R134). -/
opaque mfgSign : List Byte → List Byte

/-- The fused hash of the root key against which firmware images verify (R133). -/
opaque rootKeyHash : List Byte

/-- ML-DSA-44 verification of a signature over a message under a public key (R133, R134).  The spec names the standard
and gives none of its arithmetic. -/
opaque mlDsaVerify : List Byte → List Byte → List Byte → Bool

/-- ML-DSA-44 signing with the device's identity key (R45, R135). -/
opaque mlDsaSign : List Byte → List Byte

/-- SHA3-256 of a list of bytes, 32 bytes (R45, R133, R134); the spec names the standard. -/
opaque sha3 : List Byte → List Byte

end Sys2Proof.Config
end

