-- ==== Sys2Proof/Machine/Bits.lean ====
section
/-! DEFINITION. Helpers every layer uses: sparse tables and memories, fields of a number, byte order, sign extension,
and CRC-32C.  Nothing here knows the machine. -/

namespace Sys2Proof

/-! ## Sparse tables -/

/-- What a table reads at a key: the value listed for it, or the default `d`. -/
def Table.rd {α : Type} (d : α) : Table α → Nat → α
  | [], _ => d
  | (k', v) :: t, k => if k = k' then v else Table.rd d t k

/-- The value listed at a key, if any. -/
def Table.find {α : Type} : Table α → Nat → Option α
  | [], _ => none
  | (k', v) :: t, k => if k = k' then some v else Table.find t k

/-- List `v` at `k`, keeping keys in rising order. -/
def Table.insert {α : Type} : Table α → Nat → α → Table α
  | [], k, v => [(k, v)]
  | (k', w) :: t, k, v =>
    if k < k' then (k, v) :: (k', w) :: t
    else if k = k' then (k, v) :: t
    else (k', w) :: Table.insert t k v

/-- List nothing at `k`. -/
def Table.remove {α : Type} : Table α → Nat → Table α
  | [], _ => []
  | (k', w) :: t, k => if k = k' then Table.remove t k else (k', w) :: Table.remove t k

/-- Write `v` at `k`.  Writing the default removes the entry, so that equal contents are equal data. -/
def Table.wr {α : Type} [DecidableEq α] (d : α) (t : Table α) (k : Nat) (v : α) : Table α :=
  if v = d then Table.remove t k else Table.insert t k v

/-- The keys of a table rise strictly above `lo`. -/
def Table.risesFrom {α : Type} : Nat → Table α → Bool
  | _, [] => true
  | lo, (k, _) :: t => decide (lo ≤ k) && Table.risesFrom (k + 1) t

/-- The canonical form: keys strictly rising, and no entry equal to what an unlisted key reads as. -/
def Table.wf {α : Type} [DecidableEq α] (d : α) (t : Table α) : Bool :=
  Table.risesFrom 0 t && t.all (fun e => decide (e.2 ≠ d))

/-! ## Fields of a number -/

/-- Bits [lo + w - 1 : lo] of `n` (R1). -/
def fld (n lo w : Nat) : Nat := n / 2 ^ lo % 2 ^ w

/-- Bit `k` of `n`. -/
def bitAt (n k : Nat) : Bool := n / 2 ^ k % 2 = 1

/-- `n` with bits [lo + w - 1 : lo] replaced by the low `w` bits of `v`. -/
def setFld (n lo w v : Nat) : Nat := n - fld n lo w * 2 ^ lo + v % 2 ^ w * 2 ^ lo

/-- The two's-complement value of the low `w` bits of `n` (R11). -/
def asSigned (w n : Nat) : Int :=
  let m := n % 2 ^ w
  if m < 2 ^ (w - 1) then (m : Int) else (m : Int) - 2 ^ w

/-- `x` modulo 2^w, as a number 0 ≤ . < 2^w. -/
def wrap (w : Nat) (x : Int) : Nat := (x % (2 ^ w : Nat)).toNat

/-- The low `w` bits of `n` sign-extended to a bit vector. -/
def sextTo (v w n : Nat) : BitVec v := BitVec.ofInt v (asSigned w n)

def b2n (b : Bool) : Nat := if b then 1 else 0

/-- Clamp to lo..hi. -/
def clampI (lo hi x : Int) : Int := if x < lo then lo else if hi < x then hi else x

/-- Round `a` up to a multiple of `n`. -/
def roundUp (a n : Nat) : Nat := (a + n - 1) / n * n

/-- Fields laid side by side, the first the most significant: (width, value) pairs. -/
def packFields : List (Nat × Nat) → Nat
  | [] => 0
  | (w, v) :: fs => v % 2 ^ w * 2 ^ (fs.map Prod.fst).sum + packFields fs

/-- The inverse of `packFields`: the fields of the given widths, the first the most significant. -/
def unpackFields : List Nat → Nat → List Nat
  | [], _ => []
  | w :: ws, n => n / 2 ^ ws.sum % 2 ^ w :: unpackFields ws n

/-! ## Bytes -/

/-- The number held little-endian in a list of bytes (R3). -/
def leNat : List Byte → Nat
  | [] => 0
  | b :: bs => b.toNat + 256 * leNat bs

/-- The `n` bytes of `v`, little-endian (R3). -/
def leBytes : Nat → Nat → List Byte
  | 0, _ => []
  | n + 1, v => BitVec.ofNat 8 v :: leBytes n (v / 256)

/-- A memory: its bytes by address; an unlisted byte reads 0. -/
abbrev Mem := Table Byte

def Mem.byte (m : Mem) (a : Nat) : Byte := Table.rd 0 m a

def Mem.bytes (m : Mem) (a : Nat) : Nat → List Byte
  | 0 => []
  | n + 1 => m.byte a :: Mem.bytes m (a + 1) n

def Mem.num (m : Mem) (a n : Nat) : Nat := leNat (m.bytes a n)

def Mem.setByte (m : Mem) (a : Nat) (b : Byte) : Mem := Table.wr 0 m a b

def Mem.setBytes (m : Mem) (a : Nat) : List Byte → Mem
  | [] => m
  | b :: bs => (m.setByte a b).setBytes (a + 1) bs

def Mem.setNum (m : Mem) (a n v : Nat) : Mem := m.setBytes a (leBytes n v)

def Mem.setCells (m : Mem) : List (Nat × Byte) → Mem
  | [] => m
  | c :: cs => (m.setByte c.1 c.2).setCells cs

/-- The canonical form of a memory. -/
def Mem.wf (m : Mem) : Bool := Table.wf (0 : Byte) m

/-- The bytes of a list from index `a` on, `n` of them, zero past its end. -/
def bytesAt (bs : List Byte) (a n : Nat) : List Byte :=
  let cut := (bs.drop a).take n
  cut ++ List.replicate (n - cut.length) 0

/-- The little-endian number in bytes `a` to `a + n - 1` of a list. -/
def numAt (bs : List Byte) (a n : Nat) : Nat := leNat (bytesAt bs a n)

/-- Number a list from `k` up. -/
def numbered {α : Type} : Nat → List α → List (Nat × α)
  | _, [] => []
  | k, x :: xs => (k, x) :: numbered (k + 1) xs

/-! ## CRC-32C

R50, R66, R117 and R161 seal a flit or a packet with CRC-32C and give no polynomial; the CRC of that name is the
reflected polynomial 0x82F63B78 with all-ones initial value and final inversion (PRESUMED, log entry 8). -/

def crcBits : Nat → Nat → Nat
  | 0, c => c
  | n + 1, c => crcBits n (if c % 2 = 1 then Nat.xor (c / 2) 0x82F63B78 else c / 2)

def crcBytes : Nat → List Byte → Nat
  | c, [] => c
  | c, b :: bs => crcBytes (crcBits 8 (Nat.xor c b.toNat)) bs

/-- CRC-32C of a list of bytes. -/
def crc32c (bs : List Byte) : Nat := Nat.xor (crcBytes 0xFFFFFFFF bs) 0xFFFFFFFF

/-- A 64-byte block is sealed when bytes 60 to 63 hold the CRC-32C of bytes 0 to 59. -/
def sealed (bs : List Byte) : Bool := numAt bs 60 4 == crc32c (bytesAt bs 0 60)

/-- Bytes 0 to 59 followed by their seal. -/
def withSeal (bs : List Byte) : List Byte := bytesAt bs 0 60 ++ leBytes 4 (crc32c (bytesAt bs 0 60))

/-! ## Small list helpers -/

/-- The first element that satisfies `p` is replaced by `f` of it. -/
def updFirst {α : Type} (p : α → Bool) (f : α → α) : List α → List α
  | [] => []
  | x :: xs => if p x then f x :: xs else x :: updFirst p f xs

def sumNat (l : List Nat) : Nat := l.foldl (· + ·) 0

def maxNat (l : List Nat) : Nat := l.foldl max 0

end Sys2Proof
end

