-- ==== Sys2Proof/Machine/State.lean ====
section
/-! DEFINITION. The state of one KX-4800 package as plain data: its hardware contexts, tiles, fields, memory, host port,
torus ports, HBM4 sequencers, the Col and the Scorebook; and the two lists that carry time, what is due and what the
outside world will do. -/

namespace Sys2Proof.Machine

/-! ## A hardware context (R175, R203, R209, R211, R481) -/

/-- Which register set a name is bound to (R211, R481). -/
inductive RegSetId where
  | user | shadow | system
deriving DecidableEq, Repr

/-- The post-increment configuration of an address register (R402). -/
structure ACfg where
  mode : Nat
  inc  : Half
  base : W32
  len  : W32
  w    : Nat
  zs   : Nat
deriving DecidableEq, Repr

def ACfg.linear : ACfg := ⟨0, 0, 0, 0, 0, 0⟩

/-- One set of named registers: %s, %a with configurations, %p, and view registers (R203, R198). -/
structure RegFile where
  s    : Table W64
  a    : Table W32
  acfg : Table ACfg
  p    : Table Bool
  v    : Table W64
deriving DecidableEq, Repr

def RegFile.zero : RegFile := ⟨[], [], [], [], []⟩

/-- A loop stack entry (R183). -/
structure LoopE where
  start : Nat
  fin   : Nat
  count : Nat
  index : Nat
deriving DecidableEq, Repr

/-- The bytes of a tile with the view they were read through: a queue entry (R191) or a held operand (R192).  Bytes are
numbered from the view's BASE. -/
structure TileCopy where
  view  : W64
  bytes : Mem
deriving DecidableEq, Repr

def TileCopy.zero : TileCopy := ⟨0, []⟩

/-- A byte written under a bit mask. -/
structure MaskedByte where
  addr : Nat
  mask : Byte
  val  : Byte
deriving DecidableEq, Repr

/-- How SETS combines its operand with the register (R393). -/
inductive SetOp where
  | put | or | clr
deriving DecidableEq, Repr

/-- What an issued result writes when it lands (R186, R329). -/
inductive Dest where
  | sreg (b : RegSetId) (n : Nat) (v : W64)
  | areg (b : RegSetId) (n : Nat) (v : W32)
  | acfg (b : RegSetId) (n : Nat) (c : ACfg)
  | preg (b : RegSetId) (n : Nat) (v : Bool)
  | vreg (b : RegSetId) (n : Nat) (v : W64)
  | special (sel : Nat) (op : SetOp) (v : W64)
  /-- register-space bytes under a view; `sysw` when 0x10000 means the system window, `raw` for the alias writes of R332 -/
  | tile (view : W64) (sysw raw : Bool) (cells : List MaskedByte)
  | queue (n : Nat) (q : TileCopy)
  | shadowEntries (bank first : Nat) (es : List (BitVec 128))
  | bankImage (bank : Nat) (img : List Byte)
  | arrayMode (split : Bool)
  | flip (bank : Nat)
  /-- scratchpad bytes at physical addresses -/
  | scratch (cells : List Host.Cell)
  /-- a stash map as STASH leaves it (R465) -/
  | stmap (k : Nat) (m : BitVec 128)
deriving DecidableEq, Repr

/-- A result in flight (R186): when it lands as a device cycle, its place in issue order, the slot (as tinfo0.SLOT), the
flags ORed into aflags at the landing, and what it writes. -/
structure Result where
  id    : Nat
  land  : Nat
  seq   : Nat
  slot  : Nat
  flags : BitVec 7
  dest  : Dest
deriving DecidableEq, Repr

/-- What a descriptor of an open record does not say of the result it stands for: the result's place in issue order, whether it is bound
to the system set (R481), and which region 0x10000 meant at issue. -/
structure Caught where
  seq  : Nat
  sys  : Bool
  sysw : Bool
deriving DecidableEq, Repr

/-- A trap as R321 describes it. -/
structure Trap where
  cause  : Nat
  sub    : Nat
  slot   : Nat
  info1  : Nat
  info2  : Nat
deriving DecidableEq, Repr

/-- A reported trap that waits for a boundary (R323, R324): the cycle of its report, the order of its causing bundle, and
that bundle's PC when it has one. -/
structure Pending where
  due  : Nat
  seq  : Nat
  pc   : Option Nat
  trap : Trap
deriving DecidableEq, Repr

/-- A context between its PHASE and the release (R168, R306): the domain's key, whether it has arrived, and whether it
was in system mode. -/
structure PhaseWait where
  dom     : DomKey
  arrived : Bool
  sys     : Bool
deriving DecidableEq, Repr

/-- A filled stash slot (R275, R276): its map, the slot number, the global line it holds, the dirty bytes and the rights
of its page. -/
structure StashLine where
  map   : Nat
  slot  : Nat
  line  : Nat
  dirty : List Nat
  w     : Bool
  u     : Bool
deriving DecidableEq, Repr

structure Ctx where
  /-- the field whose context this is, and its number within the field (R149) -/
  field : Option Nat
  num   : Nat
  /-- sequencer (R177, R182, R179, R183) -/
  pc      : Nat
  dly     : Nat
  dtgt    : Nat
  litPaid : Bool
  loops   : List LoopE
  dbase   : Nat
  dlimit  : Nat
  /-- registers -/
  user   : RegFile
  shadow : RegFile
  system : RegFile
  e      : Table W32
  /-- domain slots as written, and as membership sees them (R166, R167) -/
  d      : Table W32
  dEff   : Table W32
  /-- register space (R195) -/
  window : Mem
  catchMem : Mem
  sysWin : Mem
  drowsy : Bool
  queue  : Table TileCopy
  /-- hold latches by 3 × (0 for V0, 1 for V1) + position; a latch not listed holds nothing (R192, R193) -/
  holds  : List (Nat × TileCopy)
  inflight : List Result
  /-- special registers (R395) -/
  aflags : W32
  gscope : W32
  hstat  : W32
  bkstat : W32
  lkstat : W32
  ctxpri : W32
  uivec  : W32
  uistat : W32
  uipc   : W32
  tdeleg : W32
  rstpt  : W64
  tloc   : W32
  stmap  : Table (BitVec 128)
  tinfo0 : W64
  tinfo1 : W64
  tinfo2 : W64
  smap   : W32
  dbg    : W32
  stash  : List StashLine
  /-- mode and progress -/
  sys    : Bool
  halted : Bool
  done   : Bool
  /-- records of the catch area that are open (R329), and whether record 0 is delegated (R327) -/
  rec0   : Bool
  rec1   : Bool
  deleg  : Bool
  /-- the results that the descriptors of records 0 and 1 stand for, in their order -/
  caught0 : List Caught
  caught1 : List Caught
  phase  : Option PhaseWait
  /-- the first device cycle at which the context may issue (R326, R168) -/
  readyAt : Nat
  /-- the device cycle in which YIELD stalls the context (R170) -/
  yieldAt : Option Nat
  /-- tcyc of the last issue (R171) -/
  lastIssue : Option Nat
  pending : List Pending
  /-- DEBUG 0x02 is due at the next boundary, for the bundle at this PC (R322) -/
  stepDue : Option Nat
  /-- the SOFT trap that is due: the PC and K of the TRAP that has issued, and whether it issued in a handler whose record is open
  (R397) -/
  softDue : Option (Nat × Nat × Bool)
  /-- cycles at which user-interrupt requests arrived and are not yet eligible (R210) -/
  uiReqs : List Nat
  /-- a UIRET whose delay bundles are still to issue; a UIRET or TRET whose return takes place at the next bundle (R212, R330, R398,
  R399) -/
  uiret  : Bool
  back   : Bool
  /-- the image address recorded by CSAVE.ctx while the context is evicted (R485) -/
  image  : Option Nat
  /-- what that image shows of %e, hstat, bkstat, lkstat and uistat -/
  shown  : List Byte
  /-- PC of the last CBLD by bank, and at 16 of the last AMODE, for the report of TIMING (R321) -/
  lastPc : Table Nat
  /-- the line from which the bundle at pc restarts a partial tile (R334) -/
  pline : Option Nat
  /-- that line of the bundle which a user interrupt went before, until the handler returns (R210, R334) -/
  uiPline : Option Nat
deriving DecidableEq, Repr

/-! ## Engine commands and asynchronous commands -/

/-- Bytes an engine command writes: register space of a context, or scratchpad lines of a member in one of its views. -/
inductive Region where
  | reg (hw lo n : Nat)
  | lines (swz : Bool) (first n : Nat)
deriving DecidableEq, Repr

/-- A direction of a mesh port held for `n` cycles from `start` (R448, R472). -/
structure MeshSlot where
  out   : Bool
  port  : Nat
  start : Nat
  n     : Nat
deriving DecidableEq, Repr

/-- The data slots of one port direction that a link command plans (R61): the direction, the port, the slots per frame and the
latency it was planned with, the number of its first data slot, and its flits.  Data slots are numbered from the frame
that begins at cycle 0 of the command's clock. -/
structure LinkPlan where
  out   : Bool
  port  : Nat
  s     : Nat
  lat   : Nat
  first : Nat
  n     : Nat
deriving DecidableEq, Repr

/-- An accepted engine command (R206, R208, R484): its start and last fixed cycle in tcyc, the values and views read at
issue, the (bank, physical plane) pairs it is bound to, and its progress. -/
structure ECmd where
  id      : Nat
  seq     : Nat
  hw      : Nat
  pc      : Nat
  ins     : Instr
  issue   : Nat
  t       : Nat
  last    : Nat
  vals    : List W64
  views   : List W64
  bound   : List (Nat × Nat)
  sys     : Bool
  /-- runs by device cycles: issued by system code while the field is frozen (R332) -/
  dclk    : Bool
  started : Bool
  stopped : Bool
  prog    : Nat
  /-- masks RM, KM, NM as sampled at T (R446) -/
  masks   : List Nat
  /-- bytes sampled or received so far -/
  data    : Mem
  /-- sums not yet landed: key (row × p + pass) × 256 + lane, value in [47:0], range flag in [48] -/
  sums    : Table Nat
  /-- flags of a DRAIN; status bits [51:48] of a link command (R64) -/
  status  : Nat
  /-- LRED forward start as tcyc (R484) -/
  fwd     : Option Nat
  /-- what a DRAIN writes at T + 16; of an LBCST, the weight-die bytes that a later command has written before it -/
  cells   : List MaskedByte
  /-- what the command writes and from when that is readable (R207), and the mesh slots it holds -/
  dst     : List Region
  ready   : Nat
  slots   : List MeshSlot
  /-- the last cycle in which the command still expands an index (R265), and which region 0x10000 meant at issue -/
  expand  : Nat
  sysw    : Bool
  /-- a link command's planned slots, and the register set its completion word goes to (R64) -/
  plans   : List LinkPlan
  set     : RegSetId
deriving DecidableEq, Repr

/-- A 128-byte beat on a mesh port (R472, R256): the port it arrives on, its arrival in tcyc of its field, and for a
forwarded row its place in the row and the row's beats. -/
structure Beat where
  field : Nat
  port  : Nat
  at_   : Nat
  idx   : Nat
  cnt   : Nat
  bytes : List Byte
deriving DecidableEq, Repr

/-- Where a global line is, as its one translation found (R293): absent, on another package, or at line `ln` of a die. -/
structure LineAt where
  line   : Nat
  absent : Bool
  remote : Bool
  die    : Nat
  ln     : Nat
  w      : Bool
  u      : Bool
  bs     : Bool
deriving DecidableEq, Repr

/-- An asynchronous command (R459): who issued it, the instruction, what it sampled at issue, and its completion. -/
structure Cmd where
  id    : Nat
  seq   : Nat
  tile  : Nat
  hw    : Nat
  field : Nat
  /-- the issuing context's place in its field, as `Call.rel` -/
  rel   : Nat
  pc    : Nat
  ins   : Instr
  sys   : Bool
  /-- issued by the service of an eviction or a restore (R328): its results stay with that service's context -/
  svc   : Bool
  set   : RegSetId
  ev    : Option Nat
  addr  : Nat
  pitch : Nat
  vals  : List W64
  views : List W64
  bytes : Mem
  /-- bytes still to be written, and which region 0x10000 meant at issue -/
  cells : List MaskedByte
  sysw  : Bool
  /-- the scope domain of a store (R302) -/
  scope : Option DomKey
  /-- the translations of its lines once they are made, absent lines met so far, and lines not yet served (R294, R305) -/
  xl    : List LineAt
  made  : Bool
  flags : List Nat
  wait  : List Nat
  /-- what a FENCE captured (R315), the write-backs a HINT waits for, or weight-die bytes that a later command has written before a CPY -/
  fset  : List Nat
  /-- the stash maps in force at issue (R275), and how far a copy has come -/
  maps  : List (BitVec 128)
  prog  : Nat
  /-- bits of the completion word (R469), the lowest address behind NONRES or PROT, and the lowest violating address -/
  status : Nat
  lowest : Option Nat
  viol   : Option Nat
deriving DecidableEq, Repr

/-! ## A tile (R175, R195, R242, R262) -/

/-- A codebook bank (R262): its two physical planes, which is active, and GEN. -/
structure Bank where
  plane0 : Table (BitVec 128)
  plane1 : Table (BitVec 128)
  act    : Nat
  gen    : Nat
deriving DecidableEq, Repr

def Bank.zero : Bank := ⟨[], [], 0, 0⟩

/-- A write of a scratchpad line: the line's physical number, the view of the write, its landing cycle, and the line as a
reader of the other view may still see it (R272). -/
structure Unjoined where
  line : Nat
  swz  : Bool
  land : Nat
  old  : List Byte
deriving DecidableEq, Repr

structure Tile where
  code    : Table Half
  dict    : Mem
  sysCode : Table Half
  sysDict : Mem
  sysLoaded : Bool
  /-- cells of plane p, depth d, lane j at 65536p + 256d + j: the 16-bit entry, and the block offset of its block -/
  cells   : Table Half
  boff    : Table Byte
  /-- band scale g of plane p at 4p + g, BF16 -/
  scale   : Table Half
  /-- accumulator entry e of lane n at 256e + n: bits [47:0], the range flag in bit 48 (R242) -/
  acc     : Table Nat
  split   : Bool
  banks   : Table Bank
  weight  : Mem
  scratch : Mem
  /-- the array, mesh and link engines' accepted commands (R208) -/
  arr     : List ECmd
  mesh    : List ECmd
  link    : List ECmd
  beats   : List Beat
  /-- lines written through one view that a read through the other may still see as they were (R272), and the cycle of
  each member's last VJOIN -/
  unjoined : List Unjoined
  joinAt  : Table Nat
  /-- the sibling that runs, by member (R170) -/
  running : Table Nat
  /-- device cycle + 1 of a slot's last operation of a class: 0 V0 MUL, 1 V1 MUL, 2 V0 DIV, by member + 2 × class (R189) -/
  lastOp  : Table Nat
  sround  : Table W32
  /-- commands the copy engine holds, in issue order (R468) -/
  retired : Bool
  /-- failed physical rows and columns (R35) -/
  badRows : List Nat
  badCols : List Nat
  /-- array busy cycles charged, by window (R25) -/
  busy    : Table Nat
deriving DecidableEq, Repr

/-! ## Fields, groups and domains (05_scheduler.md) -/

/-- The state codes of R141. -/
inductive FState where
  | waiting | ready | loading | starting | running | freezing | parked | evicting | evicted | restoring
deriving DecidableEq, Repr

structure Field where
  num     : Nat
  span    : Nat
  w       : Nat
  h       : Nat
  ctxs    : Nat
  ports   : Nat
  waitEv  : Nat
  doneEv  : Nat
  waitVal : W32
  image   : Nat
  arg     : W64
  queue   : Nat
  seq     : Nat
  /-- the number of its LAUNCH packet (Pkt) -/
  launch  : Nat
  prio    : Nat
  state   : FState
  /-- where a pre-emption for it makes room: the origin, and the fields it evicts (R151) -/
  claim   : Option (Nat × List Nat)
  /-- order of becoming a candidate, of eviction and of placement (R143, R151) -/
  order   : Nat
  placedAt : Nat
  /-- origin tile, and 0 alone or member A, 1 member B (R158) -/
  origin  : Nat
  member  : Nat
  /-- image header as loaded (R124) -/
  codeLen : Nat
  dictLen : Nat
  /-- device cycle at which tcyc reads 0 while it runs; tcyc while it does not (R205) -/
  ticking : Bool
  tcZero  : Nat
  /-- tcyc while the field stands still; while it runs, tcyc at its last resume, and tcZero before that (R65) -/
  tcStop  : Nat
  tcPrev  : Nat
  /-- its earlier runs, latest first: the device cycle at which tcyc read 0 in it, and tcyc at its first and last cycle + 1 (R65) -/
  runs    : List (Nat × Nat × Nat)
  /-- a fixed freeze cycle, as tcyc (R153), and whether the freeze leads to eviction -/
  freezeF : Option Nat
  toEvict : Bool
  /-- global cycle from which the field is quiet (R154), and the device cycle since which it is parked (R336) -/
  quietAt : Nat
  parkedAt : Nat
  /-- packets (queue, number of Pkt) whose completion waits for PARKED, EVICTED or RUNNING -/
  parkers : List (Nat × Nat)
  evicters : List (Nat × Nat)
  resumers : List (Nat × Nat)
  /-- a resume that is fixed (G), or one that waits for the present transition, with the global cycle of its request -/
  resumeG : Option Nat
  resumeReq : Option Nat
  /-- frozen by the thermal trip, to resume when it clears (R19) -/
  tripped : Bool
  /-- the member that ran when its group froze (R491) -/
  ranAtFreeze : Bool
  /-- spanning fields: placed notices received as (origin, cycle, lmax), own loading end, Λ once known (R161, R162) -/
  notices : List (Nat × Nat × Nat)
  loadEnd : Nat
  lam     : Option Nat
  /-- packages whose contexts have all issued DONE (R140) -/
  dones   : List Nat
deriving DecidableEq, Repr

/-- A phase unit's record of one domain (R165, R168, R169): its phase number; once its boundary has occurred on this package
and until the release, the contexts it releases, each with the global cycle of the boundary; and the arrived notices of the
span's packages as (origin, phase, cycle). -/
structure Domain where
  phase    : Half
  arrivals : List (Nat × Nat)
  remote   : List (Nat × Nat × Nat)
  releasing : Bool
deriving DecidableEq, Repr

def Domain.zero : Domain := ⟨0, [], [], false⟩

/-! ## Memory and L2 (09_memory.md, 10_memory_model.md) -/

/-- A line an L2 slice holds (R281): its encoding code, its data bytes in that encoding, and whether HBM4 lacks it. -/
structure L2Line where
  code  : Nat
  data  : List Byte
  dirty : Bool
deriving DecidableEq, Repr

/-- A pending byte (R304): its line (P div 128), the domain and phase of its version, its place in the line, its value, who
wrote it (1024 × field + place), the store it came from, and whether its page is bank-striped.  The pending version of a
line for a domain is the bytes of both, in order of arrival. -/
structure PendByte where
  line   : Nat
  dom    : DomKey
  phase  : Half
  off    : Nat
  val    : Byte
  writer : Nat
  seq    : Nat
  bs     : Bool
deriving DecidableEq, Repr

/-- A committed byte that HBM4, as bank units read it, does not hold yet (R314 to R316): its line, place and value, the path class
that wrote it (0 C, 1 K, 2 L, 3 none of a context's), the writer (1024 × field + place) and the command it came from.  The bytes of a
line that no slice holds are HBM4's under these, in order. -/
structure Late where
  line   : Nat
  off    : Nat
  val    : Byte
  cls    : Nat
  writer : Nat
  seq    : Nat
deriving DecidableEq, Repr

/-- A page request a fault unit holds (R298): field, 64 KiB page address, whether a write, a lost write-back, a hint, and
how many requests merged. -/
structure PageReq where
  field : Nat
  page  : Nat
  write : Bool
  lost  : Bool
  hint  : Bool
  count : Nat
deriving DecidableEq, Repr

structure Batch where
  reqs   : List PageReq
  opened : Nat
  closed : Option Nat
deriving DecidableEq, Repr

/-- What a walk gives for a 64 KiB page: its first physical byte and its rights (R291). -/
structure Leaf where
  p  : Nat
  w  : Bool
  u  : Bool
  bs : Bool
deriving DecidableEq, Repr

/-- A cached table entry (R293): its level, the offset's bits down to the entry's index bits, and its 64 bits. -/
structure TlbEntry where
  level : Nat
  index : Nat
  value : Nat
deriving DecidableEq, Repr

structure Die where
  hbm     : Mem
  l2      : Table L2Line
  pend    : List PendByte
  late    : List Late
  tlb     : List TlbEntry
  open_   : Option Batch
  closed  : List Batch
  droop   : Bool
deriving DecidableEq, Repr

/-! ## HBM4 pseudo-channels and bank units (03_bank_units.md) -/

/-- One bank's unit (R86): vectors v0 to v7 and acc of 16 FP32 lanes, at 16 × register + lane; acc is register 8. -/
structure BankUnit where
  regs : Table W32
deriving DecidableEq, Repr

/-- A call as sent (R95): its pseudo-channel, the issuing context's field, its place in the field, 4 × (W × y + x) + number,
and its mode, and what the call names. -/
structure Call where
  id     : Nat
  pch    : Nat
  field  : Nat
  rel    : Nat
  sys    : Bool
  ev     : Nat
  entry  : Nat
  stream : Nat
  seq    : Nat
  args   : List W64
deriving DecidableEq, Repr

/-- A call whose turn has come: its micro-PC, its status so far, whether it has ended and only its event is to come, and the
64 KiB pages of its operands, as translated when it started, each with its first physical byte. -/
structure RunCall where
  call   : Call
  upc    : Nat
  status : Nat
  ended  : Bool
  pages  : List (Nat × Nat)
deriving DecidableEq, Repr

/-- An all-bank session (R98): its holder's field and stream, the open row, when its last call ended if no further call of the
stream has arrived since (R99), and whether its windows are charged to the unreserved budget (R31). -/
structure Session where
  field   : Nat
  stream  : Nat
  row     : Option Nat
  lastEnd : Option Nat
  excess  : Bool
deriving DecidableEq, Repr

structure Seqr where
  ar      : Table W64
  lc0     : Half
  lc1     : Half
  units   : Table BankUnit
  /-- rows whose U tag is set: bank × 49152 + row (R83) -/
  utags   : List Nat
  held    : List Call
  running : Option RunCall
  session : Option Session
  /-- expected sequence number by (field, stream) (R96) -/
  expect  : List (Nat × Nat × Nat)
  /-- (field, stream) whose session was closed by abort (R99) -/
  aborted : List (Nat × Nat)
  withdrawn : Bool
  /-- from the first reset at which it is withdrawn, no address translates into its frames (R37, R292) -/
  framesOut : Bool
  badBanks : List Nat
deriving DecidableEq, Repr

/-! ## The Col and the Scorebook (01_package.md) -/

/-- A live grant (R29): class, field, units per window, and units left by window number. -/
structure Grant where
  cls   : Nat
  field : Nat
  units : Nat
  first : Nat
  last  : Nat
  used  : List (Nat × Nat)
  from_ : Nat
deriving DecidableEq, Repr

structure Col where
  budget   : Nat
  halved   : Bool
  deny     : Bool
  ovrun    : Bool
  denials  : W32
  grants   : List Grant
  /-- standing reservations: (field, units) (R24) -/
  standing : List (Nat × Nat)
  /-- units charged to the unreserved budget by window, and the fields that overran while OVRUN stands (R31) -/
  spent    : List (Nat × Nat)
  overran  : List Nat
deriving DecidableEq, Repr

structure Scorebook where
  /-- committed and volatile counters, map entries (R38 to R43) -/
  counters : Table W64
  shadow   : Table W64
  map      : Table W64
  index    : Nat
  latch    : W64
  stat     : Nat
  snapLen  : Nat
  nonce    : Table W32
  snap     : List Byte
  snapSeq  : W64
deriving DecidableEq, Repr

/-! ## Torus ports (02_torus.md) -/

/-- A data flit in a receiving port's buffer (R65): the global cycle of its frame, its slot, the slots of a frame and the latency then,
its tag, its place in its transfer, its bytes and its arrival as a device cycle. -/
structure Flit where
  frame : Nat
  slot  : Nat
  s     : Nat
  lat   : Nat
  tag   : Nat
  pos   : Nat
  bytes : List Byte
  at_   : Nat
deriving DecidableEq, Repr

structure Port where
  up     : Bool
  lanes  : Nat
  lat    : Nat
  epoch  : Nat
  badLanes : Half
  peer   : Nat
  cabled : Bool
  trained : Bool
  /-- consecutive deviations beyond ±2 (R58) -/
  devRun : Nat
  /-- cycles at which flits were lost, for the 1 ms count (R55) -/
  losses : List Nat
  /-- the STAMP and tags of the last time flit received whole, none when it was lost, and when it arrived (R61) -/
  rx     : Option (Nat × List Nat)
  rxAt   : Nat
  /-- sixteenths of a cycle that the link adds, with those that the neighbour carries (R57) -/
  frac   : Nat
  /-- flits that a command still to come may expect (R65) -/
  buf    : List Flit
deriving DecidableEq, Repr

structure Torus where
  dims   : W32
  coord  : W32
  root   : Bool
  timed  : Bool
  cfgerr : Bool
  tberr  : Bool
  hop    : Nat
  latch  : W64
  ports  : Table Port
  training : Bool
  /-- the coordinates of the time root as training found them, and the sixteenths of a cycle that this package carries (R57) -/
  rootAt : BitVec 15
  frac   : Nat
  /-- notices that wait for a free slot: (field, port, bytes), the field 2^16 once it is gone (R161) -/
  sendq  : List (Nat × Nat × List Byte)
deriving DecidableEq, Repr

/-! ## The host port (04_host.md) -/

structure Queue where
  en     : Bool
  prio   : Nat
  weight : Nat
  head   : Half
  tail   : Half
  err    : Bool
  code   : Nat
  errSeq : Half
  /-- device cycle of the first read of the slot at the head, for the seal timeout (R119) -/
  firstRead : Option Nat
  /-- packets taken and not started, and started and not complete (R118, R122) -/
  taken   : List Pkt
  started : List Pkt
deriving DecidableEq, Repr

structure HostPort where
  offok   : Bool
  badacc  : Bool
  stgerr  : Bool
  stage   : Nat
  errcode : Nat
  serial  : List Byte
  stgBase : W64
  svn     : Nat
  build   : Nat
  minSvn  : Nat
  /-- the stored target-0 firmware image, non-volatile (R133) -/
  fwStore : List Byte
  qmem    : Mem
  msix    : Table W32
  pba     : Table Bool
  queues  : Table Queue
  mbBusy  : Bool
  mbDone  : Bool
  mbResult : Nat
  mbLen   : Nat
  mbBuf   : List Byte
  /-- the answer a busy mailbox prepares: result and bytes, with its packet -/
  mbNext  : Option (Nat × List Byte × Pkt)
  ev      : Table W32
  fqProd  : Half
  fqCons  : Half
  fqNew   : Bool
  fqRing  : Mem
  /-- records that wait while the queue is FULL (R130) -/
  fqWait  : List (List Byte)
  shutdown : Bool
  /-- W1C bits the device has set in this cycle, as (BAR0 offset, bit): they end set (R8) -/
  sets    : List (Nat × Nat)
  /-- an FWLOAD that waits for writes of BAR4 that reached the device before it (R128), and the bytes of such writes that wait for their
  translation, by global address (R98) -/
  loading : Option Pkt
  stgWait : List (Nat × Byte)
  /-- payload digests of the running target-0 image and the loaded target-1 image (R135) -/
  fwDigest : List Byte
  buDigest : List Byte
deriving DecidableEq, Repr

structure PkgRegs where
  powered : Bool
  ready   : Bool
  thwarn  : Bool
  thtrip  : Bool
  droop   : Bool
  degnew  : Bool
  temp    : Int
  /-- what the temperature sensors read, in degrees: 4 × die + k of the compute dies, then 16 and 17 of the I/O dies (R18) -/
  sensors : Table Int
  /-- uncorrectable errors of tile structures met so far, as (structure, tile, cycle), and corrected HBM4 errors, as
  (16 × pseudo-channel + bank, cycle): what the one-hour rules of R34 count -/
  errs    : List (Nat × Nat × Nat)
  corr    : List (Nat × Nat)
deriving DecidableEq, Repr

/-- What leaves the package: MSI-X messages, frames, notices, remote accesses and completion to the host's memory. -/
inductive Out where
  | msix (vector : Nat)
  | flit (port : Nat) (cycle : Nat) (slot : Nat) (bytes : List Byte)
  /-- bytes written in a line of another package; with the domain and phase of their pending version when they are deferred there
  (R307) -/
  | remoteWrite (addr : Nat) (cells : List Host.Cell) (ver : Option (DomKey × Nat))
  | remoteFill (addr : Nat)
deriving DecidableEq, Repr

/-- What an evicted field left of one of its tiles in the save pool (R152, R335): the tile's place W × y + x within the
rectangle, its contexts by number, and the tile's own state. -/
structure SavedTile where
  place : Nat
  ctxs  : List Ctx
  tile  : Tile
deriving DecidableEq, Repr

/-! ## Time -/

/-- Something that will happen by itself: at device cycle `at_`, or, with `clk = some f`, when tcyc of field f reads
`at_` (it stands still while the field is frozen).  Events of one cycle happen in order of `phase`, then `seq`.  `sel` is the
pseudo-channel of an event of a sequencer. -/
structure Due where
  clk   : Option Nat
  at_   : Nat
  phase : Nat
  seq   : Nat
  ev    : Instr
  sel   : Nat := 0
deriving DecidableEq, Repr

/-- Bytes of one line that reach their home slice here from elsewhere: the line's global address, who writes them, of another package
2^26 on from 1024 × field + place, the bytes, the span domain and phase that defer them, none when they commit as they are accepted
(R307), their path class as `Late.cls` numbers it, and the command they came from, none of another package's.  A `fence` brings no
bytes: a FENCE of the writer has captured what it wrote in that class, for calls to see (R315). -/
structure Inbound where
  addr   : Nat
  writer : Nat
  cells  : List (Nat × Byte)
  ver    : Option (DomKey × Nat)
  cls    : Nat
  seq    : Option Nat
  fence  : Bool
deriving DecidableEq, Repr

/-- What the outside world does at a device cycle (log entry 2): the host writes bytes of queue memory, BAR2, which is
ordinary memory to it (R115), temperatures change (R18), other packages' writes arrive at their home slices (R307), and then an
event happens, if any. -/
structure Input where
  at_  : Nat
  ring : List Host.Cell
  /-- what temperature sensors read from this cycle on, by the numbers of PkgRegs -/
  heat : List (Nat × Int)
  stores : List Inbound
  ev   : Option Instr
deriving DecidableEq, Repr

/-- The context whose bundle is issuing, as its slots see it. -/
structure Cur where
  tile  : Nat
  hw    : Nat
  /-- PC of the bundle, and the PC that follows it in code order -/
  pc    : Nat
  next  : Nat
  /-- the trap that a slot of the bundle has raised (R323) -/
  trap  : Option Trap
  /-- delay bundles still to issue, counting this one -/
  dly   : Nat
  /-- what the S slot leaves for the end of the bundle -/
  taken : Option Nat
  jump  : Option Nat
  popped : Bool
  soft  : Option Half
  ended : Bool
  /-- sround as the bundle found it, once its VQLT has drawn (R12, R237) -/
  sround : Option W32
deriving DecidableEq, Repr

def Cur.idle : Cur := ⟨0, 0, 0, 0, none, 0, none, none, false, none, false, none⟩

structure State where
  now     : Nat
  /-- device cycle at which the global cycle counter read 0 (R57) -/
  gzero   : Int
  ctxs    : Table Ctx
  tiles   : Table Tile
  fields  : Table Field
  /-- evicted fields' saved tiles, by field -/
  saved   : Table (List SavedTile)
  /-- alternation groups as (FIELD A, FIELD B), their members that have completed, and what the LAUNCHes of their members
  must agree in: (W, H, SPAN, PORTS) by field (R157) -/
  groups  : List (Nat × Nat)
  finished : List Nat
  shapes  : Table (Nat × Nat × Nat × Nat)
  doms    : List (DomKey × Domain)
  /-- stores that the span's other packages defer and that have not committed there: domain, phase, writer and command (R307, R315) -/
  away    : List (DomKey × Nat × Nat × Nat)
  dies    : Table Die
  seqrs   : Table Seqr
  cmds    : List Cmd
  calls   : List Call
  /-- the control store, of which every unit and sequencer holds the same copy, and the entry table (R89 to R92, R133) -/
  micro   : Table (BitVec 128)
  starts  : Table Byte
  col     : Col
  sb      : Scorebook
  torus   : Torus
  hport   : HostPort
  pkg     : PkgRegs
  /-- notices seen as (ORIGIN, SERIAL), and this package's own SERIAL (R161) -/
  seen    : List (Nat × Nat)
  serial  : Half
  /-- placed notices that came before the field was placed here: (port, flit) (R163) -/
  early   : List (Nat × List Byte)
  /-- the queue served last, and the placements it may still have in its turn (R143) -/
  rrQueue : Nat
  rrLeft  : Nat
  /-- a scheduler decision is due (R143) -/
  decide_ : Bool
  orders  : Nat
  cur     : Cur
  /-- the packet that is starting (R122), the pseudo-channel whose sequencer acts, and what a host read returned -/
  pkt     : Pkt
  selPch  : Nat
  hostRead : List Byte
  agenda  : List Due
  inputs  : List Input
  out     : List Out
  /-- places below this number, 2 × tile + member, have had their chance to issue in this cycle -/
  scan    : Nat
  nextId  : Nat
  draw    : Nat
deriving DecidableEq, Repr

/-! ## Outcomes -/

/-- Reasons to stop with a fault.  There are none: every step the spec describes goes on to a next state, traps
included, so no meaning of this model ever raises a fault. -/
inductive Fault : Type
deriving DecidableEq, Repr

/-- Reasons to refuse. -/
inductive Refusal : Type where
  /-- the instruction has no meaning in the model yet; raised by exec's arm for it, and safe, since the run stops -/
  | notModelled (mnemonic : String)
deriving DecidableEq, Repr

/-! ## Reset -/

/-- A hardware context that no field owns, with the placement values of R147 (smap.SYS = 1, gscope.SLOT = 5, domain
slots by R166 are set at placement). -/
def Ctx.idle : Ctx where
  field := none
  num := 0
  pc := 0
  dly := 0
  dtgt := 0
  litPaid := false
  loops := []
  dbase := 0
  dlimit := 0
  user := RegFile.zero
  shadow := RegFile.zero
  system := RegFile.zero
  e := []
  d := []
  dEff := []
  window := []
  catchMem := []
  sysWin := []
  drowsy := false
  queue := []
  holds := []
  inflight := []
  aflags := 0
  gscope := 5
  hstat := 0
  bkstat := 0
  lkstat := 0
  ctxpri := 0
  uivec := 0
  uistat := 0
  uipc := 0
  tdeleg := 0
  rstpt := 0
  tloc := 0
  stmap := []
  tinfo0 := 0
  tinfo1 := 0
  tinfo2 := 0
  smap := 1
  dbg := 0
  stash := []
  sys := false
  halted := false
  done := false
  rec0 := false
  rec1 := false
  deleg := false
  caught0 := []
  caught1 := []
  phase := none
  readyAt := 0
  yieldAt := none
  lastIssue := none
  pending := []
  stepDue := none
  softDue := none
  uiReqs := []
  uiret := false
  back := false
  image := none
  shown := []
  lastPc := []
  pline := none
  uiPline := none

/-- A tile as manufactured: the cells of its planes read 0xC000 and the scales 0x3F80 by the defaults of their tables. -/
def Tile.idle : Tile where
  code := []
  dict := []
  sysCode := []
  sysDict := []
  sysLoaded := false
  cells := []
  boff := []
  scale := []
  acc := []
  split := false
  banks := []
  weight := []
  scratch := []
  arr := []
  mesh := []
  link := []
  beats := []
  unjoined := []
  joinAt := []
  running := []
  lastOp := []
  sround := []
  retired := false
  badRows := []
  badCols := []
  busy := []

def Die.idle : Die := ⟨[], [], [], [], [], none, [], false⟩

def Seqr.idle : Seqr where
  ar := []
  lc0 := 0
  lc1 := 0
  units := []
  utags := []
  held := []
  running := none
  session := none
  expect := []
  aborted := []
  withdrawn := false
  framesOut := false
  badBanks := []

def Port.idle : Port := ⟨false, 0, 0, 0, 0, 0, false, false, 0, [], none, 0, 0, []⟩

def Queue.idle : Queue := ⟨false, 0, 1, 0, 0, false, 0, 0, none, [], []⟩

def Col.reset : Col := ⟨0, false, false, false, 0, [], [], [], []⟩

def Scorebook.reset : Scorebook := ⟨[], [], [], 0, 0, 0, 0, [], [], 0⟩

def Torus.reset : Torus := ⟨0, 0, false, false, false, false, 0, 0, [], false, 0, 0, []⟩

def HostPort.reset : HostPort where
  offok := false
  badacc := false
  stgerr := false
  stage := 0
  errcode := 0
  serial := List.replicate 16 0
  stgBase := 0
  svn := 0
  build := 0
  minSvn := 0
  fwStore := []
  qmem := []
  msix := []
  pba := []
  queues := []
  mbBusy := false
  mbDone := false
  mbResult := 0
  mbLen := 0
  mbBuf := []
  mbNext := none
  ev := []
  fqProd := 0
  fqCons := 0
  fqNew := false
  fqRing := []
  fqWait := []
  shutdown := false
  sets := []
  loading := none
  stgWait := []
  fwDigest := []
  buDigest := List.replicate 32 0

def PkgRegs.reset : PkgRegs := ⟨true, false, false, false, false, false, 0, [], [], []⟩

/-- What the package does by itself from device cycle t on: each second's tick and a commit every 60 s (R39, R40), and a sample of
its temperature each 1 ms (R18). -/
def lifetimeTicks (t : Nat) : List Due :=
  [⟨none, t + 2000000000, 30, 0, .scorebookSecondTick, 0⟩, ⟨none, t + 120000000000, 30, 1, .scorebookCommit, 0⟩,
    ⟨none, t + 2000000, 30, 3, .tempSample [], 0⟩]

/-- Stage 0 of bring-up ends when the outside says that clocks have locked, and at its bound of 20 ms at the latest (R136, log
entry 22). -/
def bootEnd (t : Nat) : Due := ⟨none, t + 40000000, 30, 2, .bootImageCheck, 0⟩

/-- The package right after its first power-on reset: bring-up stage 0, no field, nothing listed in any memory, one power-on
reset counted (R136, R22, R32, R40, R52, R112, R116). -/
def State.reset : State where
  now := 0
  gzero := 0
  ctxs := []
  tiles := []
  fields := []
  saved := []
  groups := []
  finished := []
  shapes := []
  doms := []
  away := []
  dies := []
  seqrs := []
  cmds := []
  calls := []
  micro := []
  starts := []
  col := Col.reset
  sb := { Scorebook.reset with shadow := [(1, 1)] }
  torus := Torus.reset
  hport := HostPort.reset
  pkg := PkgRegs.reset
  seen := []
  serial := 0
  early := []
  rrQueue := 1023
  rrLeft := 0
  decide_ := false
  orders := 0
  cur := Cur.idle
  pkt := ⟨0, 0, [], 0, false⟩
  selPch := 0
  hostRead := []
  agenda := bootEnd 0 :: lifetimeTicks 0
  inputs := []
  out := []
  scan := 0
  nextId := 0
  draw := 0

end Sys2Proof.Machine
end

