-- ==== Sys2Proof/Machine/Ops.lean ====
section
/-! DEFINITION. The named operations over State: contexts, tiles and fields, time and what is due, registers, results in
flight, traps and the return from one. -/

namespace Sys2Proof.Machine

open Sys2Proof

/-! ## Contexts, tiles, fields -/

def State.ctx (s : State) (t h : Nat) : Ctx := s.ctxs.rd Ctx.idle (4 * t + h)
def State.setCtx (s : State) (t h : Nat) (c : Ctx) : State := { s with ctxs := s.ctxs.insert (4 * t + h) c }
def State.modCtx (s : State) (t h : Nat) (f : Ctx → Ctx) : State := s.setCtx t h (f (s.ctx t h))
def State.tile (s : State) (t : Nat) : Tile := s.tiles.rd Tile.idle t
def State.setTile (s : State) (t : Nat) (x : Tile) : State := { s with tiles := s.tiles.insert t x }
def State.modTile (s : State) (t : Nat) (f : Tile → Tile) : State := s.setTile t (f (s.tile t))
def State.die (s : State) (d : Nat) : Die := s.dies.rd Die.idle d
def State.modDie (s : State) (d : Nat) (f : Die → Die) : State := { s with dies := s.dies.insert d (f (s.die d)) }

/-- A field that does not exist: what the accessors answer for a number that is not live. -/
def Field.blank : Field where
  num := 0
  span := 0
  w := 1
  h := 1
  ctxs := 1
  ports := 0
  waitEv := 0
  doneEv := 0
  waitVal := 0
  image := 0
  arg := 0
  queue := 0
  seq := 0
  launch := 0
  prio := 0
  state := .waiting
  claim := none
  order := 0
  placedAt := 0
  origin := 0
  member := 0
  codeLen := 0
  dictLen := 0
  ticking := false
  tcZero := 0
  tcStop := 0
  tcPrev := 0
  runs := []
  freezeF := none
  toEvict := false
  quietAt := 0
  parkedAt := 0
  parkers := []
  evicters := []
  resumers := []
  resumeG := none
  resumeReq := none
  tripped := false
  ranAtFreeze := false
  notices := []
  loadEnd := 0
  lam := none
  dones := []

def State.field (s : State) (f : Nat) : Field := (s.fields.find f).getD Field.blank
def State.live (s : State) (f : Nat) : Bool := (s.fields.find f).isSome
def State.modField (s : State) (f : Nat) (g : Field → Field) : State :=
  match s.fields.find f with
  | none => s
  | some x => { s with fields := s.fields.insert f (g x) }

/-- The other member of a field's alternation group (R157). -/
def partnerIn : List (Nat × Nat) → Nat → Option Nat
  | [], _ => none
  | (a, b) :: gs, f => if f = a then some b else if f = b then some a else partnerIn gs f

def State.partner (s : State) (f : Nat) : Option Nat := partnerIn s.groups f
def State.grouped (s : State) (f : Nat) : Bool := (s.partner f).isSome

/-! ## Time (R205, R57) -/

def Field.tcyc (f : Field) (now : Nat) : Nat := if f.ticking then now - f.tcZero else f.tcStop

def State.tcycOf (s : State) (f : Nat) : Nat := (s.field f).tcyc s.now

/-- The global cycle (R57). -/
def State.global (s : State) : Nat := ((s.now : Int) - s.gzero).toNat

/-- The window of a global cycle: 2,000 cycles (R23). -/
def windowOf (g : Nat) : Nat := g / 2000

/-! ## What is due -/

def State.at (s : State) (clk : Option Nat) (t phase : Nat) (ev : Instr) : State :=
  { s with agenda := ⟨clk, t, phase, s.nextId, ev, 0⟩ :: s.agenda, nextId := s.nextId + 1 }

/-- The same for a command that issued earlier: among what happens in one phase of a cycle, the order is that of issue (R187). -/
def State.atSeq (s : State) (clk : Option Nat) (t phase seq : Nat) (ev : Instr) : State :=
  { s with agenda := ⟨clk, t, phase, seq, ev, 0⟩ :: s.agenda }

/-- Phases of a cycle: the start of a window of the Col, results of SETS, which both precede the outside world's inputs (R204,
R394, R490), copy, mesh and core landings, device updates, boundaries, freezes, starts,
engine starts and rows that are due before issue, so that what a row reports stops the bundle of its cycle (R252), and after issue
the starts of commands that start as they issue and the mesh sends (R187, R206, R271, R394). -/
def phWindow : Nat := 5
def phSets : Nat := 10
def phCopy : Nat := 20
def phMesh : Nat := 21
def phLand : Nat := 22
def phDevice : Nat := 30
def phBound : Nat := 40
def phFreeze : Nat := 45
def phStart : Nat := 46
def phRow : Nat := 48
def phEngine : Nat := 60

def State.fresh (s : State) : Nat × State := (s.nextId, { s with nextId := s.nextId + 1 })

/-- A number the spec leaves open, and the next draw (log entry 1). -/
def State.drawFree (s : State) : Nat × State := (Config.free s.draw, { s with draw := s.draw + 1 })

/-! ## The issuing context -/

def State.cc (s : State) : Ctx := s.ctx s.cur.tile s.cur.hw
def State.modCC (s : State) (f : Ctx → Ctx) : State := s.modCtx s.cur.tile s.cur.hw f
def State.ct (s : State) : Tile := s.tile s.cur.tile
def State.modCT (s : State) (f : Tile → Tile) : State := s.modTile s.cur.tile f
def Ctx.fieldNum (c : Ctx) : Nat := c.field.getD 0
def State.cf (s : State) : Nat := s.cc.fieldNum
def State.cfield (s : State) : Field := s.field s.cf
def State.ctcyc (s : State) : Nat := s.tcycOf s.cf
def State.cmember (s : State) : Nat := s.cfield.member
def State.cgrouped (s : State) : Bool := s.grouped s.cf
/-- The issuing context's field stands still: system code runs during a freeze (R332). -/
def State.cfrozen (s : State) : Bool := !s.cfield.ticking

/-- The clock of a command that issues now: tcyc of the field, or device cycles while the field stands still (R332). -/
def State.eclk (s : State) : Option Nat := if s.cfrozen then none else some s.cf
def State.enow (s : State) : Nat := if s.cfrozen then s.now else s.ctcyc

/-- The code segment's halfwords (R176). -/
def State.segSize (s : State) (f : Nat) : Nat := if s.grouped f then 16384 else 32768

/-! ## Registers (R203, R211, R374, R481) -/

def Ctx.active (c : Ctx) : Bool := bitAt c.uistat.toNat 8

def Ctx.file (c : Ctx) : RegSetId → RegFile
  | .user => c.user
  | .shadow => c.shadow
  | .system => c.system

def Ctx.modFile (c : Ctx) (b : RegSetId) (f : RegFile → RegFile) : Ctx :=
  match b with
  | .user => { c with user := f c.user }
  | .shadow => { c with shadow := f c.shadow }
  | .system => { c with system := f c.system }

/-- The set that %s n names (R211, R481). -/
def Ctx.sSet (c : Ctx) (n : Nat) : RegSetId :=
  if c.sys then .system else if c.active && decide (24 ≤ n) then .shadow else .user

/-- The set that %p n names. -/
def Ctx.pSet (c : Ctx) (n : Nat) : RegSetId :=
  if c.sys then .system else if c.active && decide (4 ≤ n) then .shadow else .user

/-- The set of address and view registers. -/
def Ctx.set (c : Ctx) : RegSetId := if c.sys then .system else .user

/-- %s n: %s0 reads 0 (R203). -/
def Ctx.sreg (c : Ctx) (n : Nat) : W64 := if n = 0 then 0 else (c.file (c.sSet n)).s.rd 0 n

/-- %p n: %p0 reads 1 (R203). -/
def Ctx.preg (c : Ctx) (n : Nat) : Bool := if n = 0 then true else (c.file (c.pSet n)).p.rd false n

def Ctx.areg (c : Ctx) (n : Nat) : W32 := (c.file c.set).a.rd 0 n
def Ctx.acfg (c : Ctx) (n : Nat) : ACfg := (c.file c.set).acfg.rd ACfg.linear n
def Ctx.vreg (c : Ctx) (n : Nat) : W64 := (c.file c.set).v.rd 0 n

/-- Write a scalar register of a set; a write to %s0 is discarded. -/
def Ctx.putS (c : Ctx) (b : RegSetId) (n : Nat) (v : W64) : Ctx :=
  if n = 0 then c else c.modFile b (fun r => { r with s := r.s.wr 0 n v })

def Ctx.putP (c : Ctx) (b : RegSetId) (n : Nat) (v : Bool) : Ctx :=
  if n = 0 then c else c.modFile b (fun r => { r with p := r.p.wr false n v })

def Ctx.putA (c : Ctx) (b : RegSetId) (n : Nat) (v : W32) : Ctx := c.modFile b (fun r => { r with a := r.a.wr 0 n v })
def Ctx.putACfg (c : Ctx) (b : RegSetId) (n : Nat) (v : ACfg) : Ctx :=
  c.modFile b (fun r => { r with acfg := r.acfg.wr ACfg.linear n v })
def Ctx.putV (c : Ctx) (b : RegSetId) (n : Nat) (v : W64) : Ctx := c.modFile b (fun r => { r with v := r.v.wr 0 n v })

/-- GUARD (R342): the named predicate differs from NEG. -/
def Ctx.guard (c : Ctx) (g : Guard) : Bool := c.preg g.p.toNat != g.neg

/-- %d n as written: slots 0 to 5 reset to their number, 6 and 7 to 7 (R166). -/
def slotReset (n : Nat) : W32 := if n ≤ 5 then BitVec.ofNat 32 n else 7
def Ctx.dreg (c : Ctx) (n : Nat) : W32 := c.d.rd (slotReset n) n
/-- %d n as membership and scope see it (R167). -/
def Ctx.dslot (c : Ctx) (n : Nat) : W32 := c.dEff.rd (slotReset n) n
def Ctx.ereg (c : Ctx) (n : Nat) : W32 := c.e.rd 0 n

/-- sround of a member on a tile (R237): launch sets 1. -/
def Tile.sroundOf (t : Tile) (m : Nat) : W32 := t.sround.rd 1 m

def Tile.bank (t : Tile) (b : Nat) : Bank := t.banks.rd Bank.zero b
def Bank.plane (b : Bank) (p : Nat) : Table (BitVec 128) := if p = 0 then b.plane0 else b.plane1
def Bank.setPlane (b : Bank) (p : Nat) (x : Table (BitVec 128)) : Bank :=
  if p = 0 then { b with plane0 := x } else { b with plane1 := x }
def Bank.entry (b : Bank) (p i : Nat) : BitVec 128 := (b.plane p).rd 0 i

/-- A cell of a plane (R242): 0xC000 after placement. -/
def Tile.cell (t : Tile) (p d j : Nat) : Half := t.cells.rd 0xC000 (65536 * p + 256 * d + j)
def Tile.cellOff (t : Tile) (p d j : Nat) : Byte := t.boff.rd 0 (65536 * p + 256 * d + j)
def Tile.bandScale (t : Tile) (p g : Nat) : Half := t.scale.rd 0x3F80 (4 * p + g)
/-- An accumulator entry: bits [47:0] and its range flag in bit 48. -/
def Tile.accEntry (t : Tile) (e n : Nat) : Nat := t.acc.rd 0 (256 * e + n)

/-! ## Views (R198, R199) -/

def vBase (v : W64) : Nat := fld v.toNat 0 18
def vType (v : W64) : Nat := fld v.toNat 18 4
def vRows (v : W64) : Nat := fld v.toNat 22 5
def vCols (v : W64) : Nat := fld v.toNat 27 6
def vCb (v : W64) : Nat := fld v.toNat 33 4
def vGen (v : W64) : Nat := fld v.toNat 37 8
def vGchk (v : W64) : Bool := bitAt v.toNat 45
def vXw (v : W64) : Nat := fld v.toNat 46 2

/-- Reserved bits of a view register, and BASE[6:0], are stored as zero (R198, R392). -/
def viewStore (v : W64) : W64 := v &&& 0x0000FFFFFFFFFF80

/-- Bits per element of a tile's type (R199); ACC is an 8-byte slot. -/
def typeBits (ty : Nat) : Nat :=
  match ty with
  | 0 => 32
  | 1 => 16
  | 2 => 32
  | 3 => 16
  | 4 => 8
  | 5 => 4
  | 6 => 8
  | 7 => 1
  | 8 => 64
  | 9 => 16
  | _ => 8

/-- The footprint of a type in bytes (R199). -/
def footprint (ty : Nat) : Nat := if ty = 8 then 32768 else 128 * typeBits ty

/-- Element (i, j) is active (R200). -/
def vActive (v : W64) (i j : Nat) : Bool := decide (i ≤ vRows v) && decide (j ≤ vCols v)

/-- The byte offset of element (i, j) from BASE, and its first bit within that byte. -/
def elemAt (ty i j : Nat) : Nat × Nat :=
  let k := 64 * i + j
  if ty = 8 then (2048 * i + 8 * j, 0) else (k * typeBits ty / 8, k * typeBits ty % 8)

/-- The active elements of a view, in order, as (i, j). -/
def activeElems (v : W64) : List (Nat × Nat) :=
  (List.range (vRows v + 1)).flatMap (fun i => (List.range (vCols v + 1)).map (fun j => (i, j)))

/-- The masked bytes that put element (i, j) of a view at BASE := value `x`. -/
def elemCells (v : W64) (i j x : Nat) : List MaskedByte :=
  let ty := vType v
  let (o, b) := elemAt ty i j
  let n := typeBits ty
  if n < 8 then [⟨vBase v + o, .ofNat 8 ((2 ^ n - 1) * 2 ^ b), .ofNat 8 (x % 2 ^ n * 2 ^ b)⟩]
  else (numbered (vBase v + o) (leBytes (n / 8) x)).map (fun p => ⟨p.1, 255, p.2⟩)

/-- Element (i, j) read from the bytes of a tile copy. -/
def TileCopy.elem (q : TileCopy) (i j : Nat) : Nat :=
  let (o, b) := elemAt (vType q.view) i j
  let n := typeBits (vType q.view)
  if n < 8 then fld (q.bytes.byte o).toNat b n else q.bytes.num o (n / 8)

/-! ## Register space (R195, R201) -/

/-- The byte of an accumulator slot that the alias shows: [47:0] sign-extended from bit 47. -/
def aliasByte (t : Tile) (off : Nat) : Byte :=
  let x := t.accEntry (off / 2048) (off % 2048 / 8) % 2 ^ 48
  let x := if x < 2 ^ 47 then x else x + (2 ^ 64 - 2 ^ 48)
  BitVec.ofNat 8 (x / 2 ^ (8 * (off % 8)))

/-- A byte of a context's register space as it reads it; `sysw` when 0x10000 means the system window. -/
def regByte (c : Ctx) (t : Tile) (sysw : Bool) (a : Nat) : Byte :=
  if a < 0x10000 then c.window.byte a
  else if a < 0x20000 then (if sysw then c.sysWin.byte (a - 0x10000) else c.catchMem.byte (a - 0x10000))
  else aliasByte t (a - 0x20000)

/-- smap.SYS chooses what system mode sees at 0x10000 (R195, R196). -/
def Ctx.sysw (c : Ctx) : Bool := c.sys && bitAt c.smap.toNat 0

def regBytes (c : Ctx) (t : Tile) (a : Nat) : Nat → List Byte
  | 0 => []
  | n + 1 => regByte c t c.sysw a :: regBytes c t (a + 1) n

def mergeByte (old mask val : Byte) : Byte := (old &&& ~~~mask) ||| (val &&& mask)

/-- Store one byte of an accumulator slot (R201): bytes 0 to 5 are bits [47:0]; byte 6 bit 0 is the range flag in the
writes of R332 only; the rest is ignored. -/
def aliasStore (t : Tile) (raw : Bool) (off : Nat) (m v : Byte) : Tile :=
  let k := off / 2048 * 256 + off % 2048 / 8
  let b := off % 8
  let x := t.acc.rd 0 k
  if b < 6 then
    { t with acc := t.acc.wr 0 k (setFld x (8 * b) 8 (mergeByte (.ofNat 8 (fld x (8 * b) 8)) m v).toNat) }
  else if b = 6 && raw then { t with acc := t.acc.wr 0 k (setFld x 48 1 v.toNat) }
  else t

/-- Write masked bytes of register space. -/
def putCells (sysw raw : Bool) : List MaskedByte → Ctx × Tile → Ctx × Tile
  | [], ct => ct
  | w :: ws, (c, t) =>
    putCells sysw raw ws
      (if w.addr < 0x10000 then
        ({ c with window := c.window.setByte w.addr (mergeByte (c.window.byte w.addr) w.mask w.val) }, t)
      else if w.addr < 0x20000 then
        let a := w.addr - 0x10000
        if sysw then ({ c with sysWin := c.sysWin.setByte a (mergeByte (c.sysWin.byte a) w.mask w.val) }, t)
        else ({ c with catchMem := c.catchMem.setByte a (mergeByte (c.catchMem.byte a) w.mask w.val) }, t)
      else (c, aliasStore t raw (w.addr - 0x20000) w.mask w.val))

/-- The bytes of a tile read through a view, numbered from its BASE: only those of active elements for an ACC view. -/
def readTile (c : Ctx) (t : Tile) (v : W64) : TileCopy :=
  if vType v = 8 then
    ⟨v, (activeElems v).foldl
      (fun m p => m.setBytes (2048 * p.1 + 8 * p.2) (regBytes c t (vBase v + 2048 * p.1 + 8 * p.2) 8)) []⟩
  else ⟨v, Mem.setBytes [] 0 (regBytes c t (vBase v) (footprint (vType v)))⟩

/-! ## Special registers that software writes (R6, R7, R393, R394) -/

/-- (RW mask, W1C mask) of a 32-bit special register by selector. -/
def specialMasks (sel : Nat) : Nat × Nat :=
  match sel with
  | 0x001 => (0x7F, 0)
  | 0x002 => (0xFFFFFFFF, 0)
  | 0x003 => (7, 0)
  | 0x004 => (15, 0)
  | 0x005 => (0x3FF, 0)
  | 0x006 => (15, 0)
  | 0x007 => (3, 0)
  | 0x008 => (0x80007FFF, 0)
  | 0x009 => (0, 0x200)
  | 0x00A => (0x7FFF, 0)
  | 0x00B => (0x07FA7FFF, 0)
  | 0x800 => (1, 0)
  | 0x801 => (0x1FFFF, 0)
  | _ => (0xFFFFFFFF, 0)

/-- A software write `v` to a register that reads `old` (R6 to R8): RW bits take it, W1C bits clear where it is 1. -/
def softWrite (masks : Nat × Nat) (old v : Nat) : Nat :=
  let kept := Nat.land old (0xFFFFFFFF - masks.1)
  Nat.lor (Nat.land v masks.1) (kept - Nat.land kept (Nat.land v masks.2))

/-- What SETS stores, as the value a plain write would carry (R393). -/
def setValue (op : SetOp) (old v : Nat) : Nat :=
  match op with
  | .put => v
  | .or => Nat.lor old v
  | .clr => old - Nat.land old v

/-- A domain slot as stored (R166): LEVEL 6 becomes 7, ID is 0 for LEVEL 0. -/
def slotStore (v : Nat) : W32 :=
  let lv := if v % 8 = 6 then 7 else v % 8
  BitVec.ofNat 32 (lv + (if lv = 0 then 0 else fld v 4 4 * 16))

/-- A special register of a context as GETS reads it, but for tcyc, sround, lkport and %l, which are read elsewhere. -/
def Ctx.special (c : Ctx) (sel : Nat) : W64 :=
  let w (x : W32) : W64 := x.setWidth 64
  match sel with
  | 0x001 => w c.aflags
  | 0x003 => w c.gscope
  | 0x004 => w c.hstat
  | 0x005 => w c.bkstat
  | 0x006 => w c.lkstat
  | 0x007 => w c.ctxpri
  | 0x008 => w c.uivec
  | 0x009 => w c.uistat
  | 0x00A => w c.uipc
  | 0x00B => w c.tdeleg
  | 0x00C => c.rstpt
  | 0x00D => w c.tloc
  | 0x100 => c.tinfo0
  | 0x101 => c.tinfo1
  | 0x102 => c.tinfo2
  | 0x800 => w c.smap
  | 0x801 => w c.dbg
  | _ =>
    if 0x018 ≤ sel && sel ≤ 0x01F then
      let m := (c.stmap.rd 0 ((sel - 0x018) / 2)).toNat
      BitVec.ofNat 64 (if sel % 2 = 0 then m else m / 2 ^ 64)
    else if 0x020 ≤ sel && sel ≤ 0x027 then w (c.dreg (sel - 0x020))
    else if 0x030 ≤ sel && sel ≤ 0x03F then (c.ereg (sel - 0x030)).signExtend 64
    else 0

/-- A PC field of a group member keeps 14 bits (R209, R327). -/
def pcMask (grouped : Bool) (v : Nat) : Nat := if grouped then v - bitAtN v * 2 ^ 14 else v
where bitAtN (v : Nat) : Nat := fld v 14 1

/-- Land a SETS in its context (R393, R394).  `half` when the context's PC fields keep 14 bits. -/
def Ctx.setSpecial (c : Ctx) (half : Bool) (sel : Nat) (op : SetOp) (v : W64) : Ctx :=
  let old := (c.special sel).toNat % 2 ^ 32
  let x := setValue op old (v.toNat % 2 ^ 32)
  let x := softWrite (specialMasks sel) old x
  let w : W32 := BitVec.ofNat 32 x
  let wp : W32 := BitVec.ofNat 32 (pcMask half x)
  match sel with
  | 0x001 => { c with aflags := w }
  | 0x003 => { c with gscope := w }
  | 0x004 => { c with hstat := w }
  | 0x005 => { c with bkstat := w }
  | 0x006 => { c with lkstat := w }
  | 0x007 => { c with ctxpri := w }
  | 0x008 => { c with uivec := wp }
  | 0x009 => { c with uistat := w }
  | 0x00A => { c with uipc := wp }
  | 0x00B => { c with tdeleg := wp }
  | 0x800 => { c with smap := w }
  | 0x801 => { c with dbg := w }
  | _ =>
    if 0x020 ≤ sel && sel ≤ 0x027 then { c with d := c.d.wr (slotReset (sel - 0x020)) (sel - 0x020) (slotStore x) }
    else if 0x030 ≤ sel && sel ≤ 0x03F then { c with e := c.e.wr 0 (sel - 0x030) w }
    else c

/-! ## Results in flight (R186, R325) -/

def State.result (s : State) (lat phase slot : Nat) (flags : BitVec 7) (dest : Dest) : State :=
  let r : Result := ⟨s.nextId, s.now + lat, s.nextId, slot, flags, dest⟩
  ((s.modCC (fun c => { c with inflight := c.inflight ++ [r] })).at none (s.now + lat) phase
    (.resultLanding (.ofNat 8 s.cur.tile) (.ofNat 2 s.cur.hw) r.id))

/-- The bytes a result counts in flight (R325). -/
def Dest.bytes : Dest → Nat
  | .tile v _ _ _ => if vType v = 8 then 8192 else footprint (vType v)
  | .queue _ _ => 4104
  | .shadowEntries _ _ es => 16 * es.length
  | .bankImage _ _ => 8208
  | .flip _ => 0
  | .scratch _ => 0
  | .stmap _ _ => 0
  | _ => 8

def Ctx.inflightBytes (c : Ctx) : Nat := sumNat (c.inflight.map (fun r => r.dest.bytes))

/-- Data bytes of the catch area that the open records leave free (R325, R329). -/
def Ctx.catchFree (c : Ctx) : Nat :=
  61440 - ((if c.rec0 then c.catchMem.num 4 4 else 0) + (if c.rec1 then c.catchMem.num 0x204 4 else 0))

def setEntries (p : Table (BitVec 128)) (i : Nat) : List (BitVec 128) → Table (BitVec 128)
  | [] => p
  | e :: es => setEntries (p.wr 0 i e) (i + 1) es

def mod128 (bs : List Byte) : List (BitVec 128) :=
  (List.range (bs.length / 16)).map (fun i => BitVec.ofNat 128 (numAt bs (16 * i) 16))

/-- The bank that a bank image describes (R455). -/
def bankOfImage (img : List Byte) : Bank where
  plane0 := setEntries [] 0 (mod128 (bytesAt img 0 4096))
  plane1 := setEntries [] 0 (mod128 (bytesAt img 4096 4096))
  gen := numAt img 8192 1
  act := numAt img 8193 1

/-! ## Writing the scratchpad (R271, R272) -/

/-- The bytes of `cells` that lie in line l, put into the 16 bytes `old` of that line. -/
def patchLine (cells : List Host.Cell) (l : Nat) (old : List Byte) : List Byte :=
  (numbered (16 * l) old).map (fun p => ((cells.find? (fun c => c.1 == p.1)).map (·.2)).getD p.2)

def distinct : List Nat → List Nat
  | [] => []
  | x :: xs => if xs.contains x then distinct xs else x :: distinct xs

/-- Write scratchpad bytes, at physical addresses, through a view: a reader of the other view may still see each line as
it was, and a reader of this view sees these bytes even in what it may still see (R272). -/
def Tile.spWrite (t : Tile) (now : Nat) (swz : Bool) (cells : List Host.Cell) : Tile :=
  let ls := distinct (cells.map (fun c => c.1 / 16))
  let seen := t.unjoined.map (fun u => if u.swz != swz && ls.contains u.line then { u with old := patchLine cells u.line u.old } else u)
  { t with
    scratch := Mem.setCells t.scratch cells,
    unjoined := seen ++ ls.map (fun l => ⟨l, swz, now, t.scratch.bytes (16 * l) 16⟩) }

/-- Write a result to its destination: the context and its tile (R186).  `half` as in `Ctx.setSpecial`. -/
def landDest (now : Nat) (half : Bool) (member : Nat) (d : Dest) (c : Ctx) (t : Tile) : Ctx × Tile :=
  match d with
  | .sreg b n v => (c.putS b n v, t)
  | .areg b n v => (c.putA b n v, t)
  | .acfg b n v => (c.putACfg b n v, t)
  | .preg b n v => (c.putP b n v, t)
  | .vreg b n v => (c.putV b n v, t)
  | .special sel op v =>
    if sel = 0x002 then
      let old := (t.sroundOf member).toNat
      let x := setValue op old (v.toNat % 2 ^ 32)
      (c, { t with sround := t.sround.wr 1 member (if x = 0 then 1 else .ofNat 32 x) })
    else (c.setSpecial half sel op v, t)
  | .tile _ sysw raw cells => putCells sysw raw cells (c, t)
  | .queue n q => ({ c with queue := c.queue.wr TileCopy.zero n q }, t)
  | .shadowEntries b first es =>
    let k := t.bank b
    (c, { t with banks := t.banks.wr Bank.zero b (k.setPlane (1 - k.act) (setEntries (k.plane (1 - k.act)) first es)) })
  | .bankImage b img => (c, { t with banks := t.banks.wr Bank.zero b (bankOfImage img) })
  | .arrayMode sp => (c, { t with split := sp })
  | .flip b =>
    let k := t.bank b
    (c, { t with banks := t.banks.wr Bank.zero b { k with act := 1 - k.act, gen := (k.gen + 1) % 256 } })
  | .scratch cells => (c, t.spWrite now false cells)
  | .stmap k m => ({ c with stmap := c.stmap.wr 0 k m }, t)

def orFlags (c : Ctx) (f : BitVec 7) : Ctx := { c with aflags := c.aflags ||| f.setWidth 32 }

/-- Land a result of a context: SETS of a domain slot that named no domain takes effect for membership at once (R167). -/
def State.land (s : State) (t h : Nat) (r : Result) : State :=
  let c := s.ctx t h
  let f := c.fieldNum
  let (c', t') := landDest s.now (s.grouped f && (s.field f).member == 1) (s.field f).member r.dest c (s.tile t)
  let c' := orFlags c' r.flags
  let c' :=
    match r.dest with
    | .special sel _ _ =>
      if 0x020 ≤ sel && sel ≤ 0x027 && (c'.dslot (sel - 0x020)).toNat % 8 == 7 then
        { c' with dEff := c'.dEff.wr (slotReset (sel - 0x020)) (sel - 0x020) (c'.dreg (sel - 0x020)) }
      else c'
    | _ => c'
  let c' := { c' with inflight := c'.inflight.filter (fun x => x.id != r.id) }
  (s.setCtx t h c').setTile t t'

/-! ## Taking a trap (R320 to R328) and the catch record (R329) -/

def tinfo0Of (tr : Trap) (late sysm deleg : Bool) (pc : Nat) : W64 :=
  BitVec.ofNat 64 (tr.cause + 2 ^ 8 * tr.sub + 2 ^ 16 * tr.slot + 2 ^ 19 * b2n late + 2 ^ 20 * b2n sysm
    + 2 ^ 21 * b2n deleg + 2 ^ 32 * (pc % 2 ^ 15))

/-- KIND, TARGET and data of a caught result (R329); an address configuration, a flip, a stash map and a scratchpad write are never caught (log entry
9). -/
def Dest.caught (c : Ctx) (t : Tile) : Dest → Option (Nat × Nat × List Byte)
  | .sreg _ n v => some (2, n, leBytes 8 v.toNat)
  | .areg _ n v => some (3, n, leBytes 8 v.toNat)
  | .preg _ n v => some (4, n, leBytes 8 (b2n v))
  | .vreg _ n v => some (6, n, leBytes 8 v.toNat)
  | .special sel _ v => some (if 0x020 ≤ sel && sel ≤ 0x027 then 10 else 7, sel, leBytes 8 v.toNat)
  | .tile v sysw raw cells =>
    let (c', t') := putCells sysw raw cells (c, t)
    let n := if vType v = 8 then 0 else footprint (vType v)
    if vType v = 8 then
      some (1, v.toNat, (List.range 1024).flatMap (fun k => regBytes c' t' (vBase v + 2048 * (k / 64) + 8 * (k % 64)) 8))
    else some (1, v.toNat, (List.range n).map (fun k => regByte c' t' sysw (vBase v + k)))
  | .queue n q => some (5, n, q.bytes.bytes 0 4096 ++ leBytes 8 q.view.toNat)
  | .shadowEntries b first es => some (8, b + 16 * first, es.flatMap (fun e => leBytes 16 e.toNat))
  | .bankImage b img => some (8, b, img)
  | .arrayMode sp => some (9, 0, leBytes 8 (b2n sp))
  | .acfg _ _ _ => none
  | .flip _ => none
  | .scratch _ => none
  | .stmap _ _ => none

def Dest.isShadow : Dest → Bool
  | .sreg b _ _ => b == .shadow
  | .preg b _ _ => b == .shadow
  | _ => false

/-- One descriptor: 16 bytes (R329). -/
def descBytes (kind remain : Nat) (shadow : Bool) (slot flags doff len target : Nat) : List Byte :=
  leBytes 8 (kind + 2 ^ 4 * (remain % 32) + 2 ^ 9 * b2n shadow + 2 ^ 10 * slot + 2 ^ 13 * flags + 2 ^ 32 * doff
    + 2 ^ 48 * len) ++ leBytes 8 target

structure CatchAcc where
  descs : List (List Byte)
  data  : List Byte

/-- Lay out the descriptors and data of the results in flight, in order of issue; data from `off` on. -/
def catchList (now off : Nat) (c : Ctx) (t : Tile) : List Result → CatchAcc → CatchAcc
  | [], a => a
  | r :: rs, a =>
    match r.dest.caught c t with
    | none => catchList now off c t rs a
    | some (k, tg, bs) =>
      catchList now off c t rs
        ⟨a.descs ++ [descBytes k (r.land - now) r.dest.isShadow r.slot r.flags.toNat (off + a.data.length) bs.length tg],
          a.data ++ bs⟩

def loopBytes : List LoopE → List Byte
  | [] => []
  | e :: es => leBytes 2 e.start ++ leBytes 2 e.fin ++ leBytes 4 0 ++ leBytes 4 e.count ++ leBytes 4 e.index ++ loopBytes es

/-- Results that stay with the tile at a catch: those no descriptor kind names, and a PASS answer too far off for REMAIN, which the Col
still delivers (log entry 9). -/
def Result.stays (now : Nat) (r : Result) : Bool :=
  match r.dest with
  | .acfg _ _ _ => true
  | .flip _ => true
  | .scratch _ => true
  | .stmap _ _ => true
  | _ => decide (now + 31 < r.land)

/-- What a descriptor of the result leaves unsaid. -/
def Result.mark (r : Result) : Caught :=
  match r.dest with
  | .sreg b _ _ => ⟨r.seq, b == .system, false⟩
  | .areg b _ _ => ⟨r.seq, b == .system, false⟩
  | .preg b _ _ => ⟨r.seq, b == .system, false⟩
  | .vreg b _ _ => ⟨r.seq, b == .system, false⟩
  | .tile _ w _ _ => ⟨r.seq, false, w⟩
  | _ => ⟨r.seq, false, false⟩

/-- Write a record (R329): header `hdr` (0x000 or 0x200), resume PC, flags byte.  Results in flight leave the context. -/
def Ctx.catchRecord (c : Ctx) (t : Tile) (now tcyc rpc : Nat) (fl reason : Nat) (second : Bool) : Ctx :=
  let hdr := if second then 0x200 else 0
  let d0 := if second then c.catchMem.num 0 4 else 0
  let b0 := if second then c.catchMem.num 4 4 else 0
  let out := c.inflight.filter (fun r => !r.stays now)
  let a := catchList now (0x1000 + b0) c t out ⟨[], []⟩
  let head := leBytes 4 a.descs.length ++ leBytes 4 a.data.length ++ leBytes 8 tcyc ++ leBytes 2 rpc ++ leBytes 1 c.dly
    ++ leBytes 1 (fl + 16 * b2n c.pline.isSome) ++ leBytes 2 c.dtgt ++ leBytes 1 c.loops.length ++ leBytes 1 0 ++ bytesAt (loopBytes c.loops) 0 96
    ++ leBytes 8 reason ++ leBytes 2 (c.pline.getD 0)
  let m := Mem.setBytes c.catchMem hdr (bytesAt head 0 0x200)
  let m := Mem.setBytes m (0x400 + 16 * d0) a.descs.flatten
  let m := Mem.setBytes m (0x1000 + b0) a.data
  let c := { c with catchMem := m, inflight := c.inflight.filter (Result.stays now), pline := none }
  if second then { c with rec1 := true, caught1 := out.map Result.mark } else { c with rec0 := true, caught0 := out.map Result.mark }

/-- The causes a program may take itself (R327). -/
def delegated (c : Ctx) (cause : Nat) : Bool :=
  !c.sys && !c.active && !c.rec0 && bitAt c.tdeleg.toNat (16 + cause) && cause != 2 && cause != 11

/-- A halted context issues nothing and counts as having issued DONE (R328). -/
def Ctx.halt (c : Ctx) : Ctx := { c with halted := true, phase := none }

/-- Where a trap is taken: the resume PC, the PC that tinfo0 reports, whether LATE, and LITPAID of the resume bundle. -/
structure TrapAt where
  rpc  : Nat
  pc   : Nat
  late : Bool
  lit  : Bool
  run  : Bool

/-- Taking a trap (R326 to R328), in the context (t, h) alone: write tinfo, catch what is in flight, and enter the
delegated handler or system mode, whose first bundle issues at now + 4.  A trap in system mode, or while a delegated
record is open, halts the context and catches nothing. -/
def State.takeTrap (s : State) (t h : Nat) (tr : Trap) (w : TrapAt) : State :=
  let c := s.ctx t h
  if c.sys || (c.rec0 && c.deleg) then
    let c := { c with
      tinfo0 := tinfo0Of tr w.late c.sys (c.rec0 && c.deleg) w.pc,
      tinfo1 := .ofNat 64 tr.info1, tinfo2 := .ofNat 64 tr.info2 }
    s.setCtx t h c.halt
  else
    let dg := delegated c tr.cause
    let t0 := tinfo0Of tr w.late false dg w.pc
    let fl := b2n w.lit + 2 * b2n w.run + 4 * b2n dg
    let c := if tr.cause == 6 && bitAt tr.info2 15 then { c with pline := some (tr.info2 % 512) } else c
    let c := c.catchRecord (s.tile t) s.now (s.tcycOf c.fieldNum) w.rpc fl t0.toNat false
    let c := { c with
      tinfo0 := t0, tinfo1 := .ofNat 64 tr.info1, tinfo2 := .ofNat 64 tr.info2,
      dly := 0, litPaid := false, readyAt := s.now + 4, deleg := dg, stepDue := none, softDue := none }
    let c :=
      if dg then
        { c with uistat := c.uistat ||| 0x100, uipc := .ofNat 32 w.rpc, pc := c.tdeleg.toNat % s.segSize c.fieldNum }
      else { c with sys := true, smap := c.smap ||| 1, pc := 0, loops := [] }
    s.setCtx t h c

/-! ## Return from a trap (R330) -/

structure Desc where
  kind   : Nat
  remain : Nat
  shadow : Bool
  slot   : Nat
  flags  : Nat
  doff   : Nat
  len    : Nat
  target : Nat

def descAt (m : Mem) (a : Nat) : Desc :=
  let x := m.num a 8
  ⟨fld x 0 4, fld x 4 5, bitAt x 9, fld x 10 3, fld x 13 7, fld x 32 16, fld x 48 16, m.num (a + 8) 8⟩

/-- The first faulty descriptor of a record, as the offset of its faulty byte (R330). -/
def badDesc (m : Mem) (a : Nat) : Nat → Option Nat
  | 0 => none
  | n + 1 =>
    let d := descAt m a
    if d.kind = 0 || 11 ≤ d.kind || d.remain = 0 then some a
    else if 0x10000 < d.doff + d.len then some (a + 4)
    else badDesc m (a + 16) n

/-- The masked bytes a caught tile writes: the active elements of its TARGET view, from its data. -/
def tileCells (v : W64) (data : List Byte) : List MaskedByte :=
  if vType v = 8 then
    (activeElems v).flatMap (fun p => elemCells v p.1 p.2 (numAt data (8 * (64 * p.1 + p.2)) 8))
  else
    let q : TileCopy := ⟨v, Mem.setBytes [] 0 data⟩
    (activeElems v).flatMap (fun p => elemCells v p.1 p.2 (q.elem p.1 p.2))

/-- The destination a descriptor names (R329), in the set its result was bound to. -/
def Desc.dest (d : Desc) (k : Caught) (data : List Byte) : Dest :=
  let v : W64 := .ofNat 64 (leNat (bytesAt data 0 8))
  let main : RegSetId := if k.sys then .system else .user
  let set : RegSetId := if d.shadow then .shadow else main
  let n := d.target % 64
  match d.kind with
  | 1 => .tile (.ofNat 64 d.target) k.sysw false (tileCells (.ofNat 64 d.target) data)
  | 2 => .sreg set n v
  | 3 => .areg main n (v.setWidth 32)
  | 4 => .preg set n (v != 0)
  | 5 => .queue (d.target % 8) ⟨.ofNat 64 (numAt data 4096 8), Mem.setBytes [] 0 (bytesAt data 0 4096)⟩
  | 6 => .vreg main n v
  | 7 => .special (d.target % 4096) .put v
  | 8 => if 4096 < d.len then .bankImage (d.target % 16) data else .shadowEntries (d.target % 16) (fld d.target 4 8) (mod128 data)
  | 9 => .arrayMode (v != 0)
  | _ => .special (d.target % 4096) .put v

/-- The results of n descriptors from a on, with ids from `next` on, and their landing cycles g + REMAIN (R330).  A descriptor that
system code has added stands last in issue order; `sysm` says which set it names (FLAGS.SYS). -/
def recordResults (m : Mem) (g : Nat) (sysm : Bool) (next a : Nat) : List Caught → Nat → List Result
  | _, 0 => []
  | ks, n + 1 =>
    let d := descAt m a
    let k := ks.headD ⟨next, sysm, false⟩
    ⟨next, g + d.remain, k.seq, d.slot, .ofNat 7 d.flags, d.dest k (m.bytes d.doff d.len)⟩
      :: recordResults m g sysm (next + 1) (a + 16) ks.tail n

/-- Put a result in its place among others that stand in order of issue. -/
def insertResult (r : Result) : List Result → List Result
  | [] => [r]
  | x :: xs => if r.seq ≤ x.seq then r :: x :: xs else x :: insertResult r xs

/-- Put the results of a record in flight again, at `g` + REMAIN, among those in flight in order of issue (R329, R330, R362). -/
def State.replay (s : State) (t h g a : Nat) (second : Bool) (n : Nat) : State :=
  let c := s.ctx t h
  let sysm := bitAt (c.catchMem.num (if second then 0x213 else 0x13) 1) 3
  let rs := recordResults c.catchMem g sysm s.nextId a (if second then c.caught1 else c.caught0) n
  let s := s.setCtx t h { c with inflight := rs.foldr insertResult c.inflight }
  { s with
    agenda := rs.map (fun r => ⟨none, r.land, phLand, r.seq, .resultLanding (.ofNat 8 t) (.ofNat 2 h) r.id, 0⟩) ++ s.agenda,
    nextId := s.nextId + n }

def loopsFrom (m : Mem) (a : Nat) : Nat → List LoopE
  | 0 => []
  | n + 1 => ⟨m.num a 2, m.num (a + 2) 2, m.num (a + 8) 4, m.num (a + 12) 4⟩ :: loopsFrom m (a + 16) n

/-- Restore the sequencer from a record's header (R330): PC, loop stack, delay state and LITPAID. -/
def Ctx.restoreSeq (c : Ctx) (hdr : Nat) : Ctx :=
  let m := c.catchMem
  { c with
    pc := m.num (hdr + 0x10) 2
    dly := m.num (hdr + 0x12) 1
    litPaid := bitAt (m.num (hdr + 0x13) 1) 0
    pline := if bitAt (m.num (hdr + 0x13) 1) 4 then some (m.num (hdr + 0x80) 2 % 512) else none
    dtgt := m.num (hdr + 0x14) 2
    loops := loopsFrom m (hdr + 0x18) (min 6 (m.num (hdr + 0x16) 1)) }

/-- Replay a record with its first bundle at cycle g, and close it (R330).  A malformed record raises ILLEGAL 0x08 and
replays nothing: the context halts, since it is raised in system mode or under a delegated record (R328). -/
def State.returnFrom (s : State) (t h g : Nat) (second : Bool) : State :=
  let c := s.ctx t h
  let hdr := if second then 0x200 else 0
  let n := min 192 (c.catchMem.num hdr 4)
  let base := 0x400 + (if second then 16 * c.catchMem.num 0 4 else 0)
  match badDesc c.catchMem base n with
  | some off =>
    s.takeTrap t h ⟨1, 8, 5, 0, off⟩ ⟨c.pc, c.pc, false, false, false⟩
  | none =>
    let s := s.replay t h g base second n
    s.modCtx t h (fun c =>
      let c := c.restoreSeq hdr
      if second then { c with rec1 := false, caught1 := [] } else { c with rec0 := false, deleg := false, caught0 := [] })

/-! ## Events and reports that reach a context wherever it is (R97, R204, R213, R299) -/

/-- The place of a context in its field: 4 × (W × y + x) + number. -/
def State.relOf (s : State) (t h : Nat) : Nat :=
  let c := s.ctx t h
  let f := s.field c.fieldNum
  4 * (f.w * (t / 16 - f.origin / 16) + (t % 16 - f.origin % 16)) + c.num

def modNth {α : Type} (f : α → α) : Nat → List α → List α
  | _, [] => []
  | 0, x :: xs => f x :: xs
  | n + 1, x :: xs => x :: modNth f n xs

/-- Where a place of a field is: its tile and hardware context, while the field is on the tiles. -/
def Field.locate (f : Field) (rel : Nat) : Nat × Nat :=
  (16 * (f.origin / 16 + rel / 4 / f.w) + (f.origin % 16 + rel / 4 % f.w), 2 * f.member + rel % 4)

def SavedTile.mod (x : SavedTile) (n : Nat) (g : Ctx → Tile → Ctx × Tile) : SavedTile :=
  match x.ctxs[n]? with
  | none => x
  | some c => let (c, t) := g c x.tile; { x with ctxs := modNth (fun _ => c) n x.ctxs, tile := t }

/-- Update a context of a field and its tile by place: on the tile, or in what the field's eviction saved (R204).  While the
saves go on, the contexts are saved already and the tile is still the one they stand on. -/
def State.modPlace (s : State) (f rel : Nat) (g : Ctx → Tile → Ctx × Tile) : State :=
  if !s.live f then s else
  match s.saved.find f with
  | some ts =>
    if (s.field f).state = .evicting then
      let t := ((s.field f).locate rel).1
      let one (x : SavedTile) : SavedTile := { x with tile := s.tile t }
      let x := (ts.find? (fun x => x.place == rel / 4)).map (fun x => (one x).mod (rel % 4) g)
      match x with
      | none => s
      | some x =>
        let put (y : SavedTile) : SavedTile := if y.place = x.place then { y with ctxs := x.ctxs } else y
        { s with saved := s.saved.insert f (ts.map put) }.setTile t x.tile
    else { s with saved := s.saved.insert f (ts.map (fun x => if x.place = rel / 4 then x.mod (rel % 4) g else x)) }
  | none =>
    let (t, h) := (s.field f).locate rel
    let (c, x) := g (s.ctx t h) (s.tile t)
    (s.setCtx t h c).setTile t x

def State.modRel (s : State) (f rel : Nat) (g : Ctx → Ctx) : State := s.modPlace f rel (fun c t => (g c, t))

/-- A context of a field by place, wherever it is. -/
def State.place (s : State) (f rel : Nat) : Ctx × Tile :=
  match s.saved.find f with
  | some ts =>
    match ts.find? (fun x => x.place == rel / 4) with
    | some x =>
      ((x.ctxs[rel % 4]?).getD Ctx.idle, if (s.field f).state = .evicting then s.tile ((s.field f).locate rel).1 else x.tile)
    | none => (Ctx.idle, Tile.idle)
  | none => let (t, h) := (s.field f).locate rel; (s.ctx t h, s.tile t)

/-- One completion on %e: subtract n modulo 2^32 (R204, R363). -/
def Ctx.count (c : Ctx) (e n : Nat) : Ctx := { c with e := c.e.wr 0 e (c.ereg e - .ofNat 32 n) }

def State.countEvent (s : State) (f rel e : Nat) : State := s.modRel f rel (fun c => c.count e 1)

/-- Report a trap to be taken at the next boundary (R323). -/
def Ctx.report (c : Ctx) (due seq : Nat) (pc : Option Nat) (tr : Trap) : Ctx :=
  { c with pending := c.pending ++ [⟨due, seq, pc, tr⟩] }

/-- A user-interrupt request that arrives now (R210): PEND saturates at 255 and sets OVF. -/
def Ctx.uiRequest (c : Ctx) (now : Nat) : Ctx :=
  let pend := c.uistat.toNat % 256
  let c := { c with uiReqs := c.uiReqs ++ [now] }
  if pend = 255 then { c with uistat := c.uistat ||| 0x200 } else { c with uistat := c.uistat + 1 }

/-! ## Outputs -/

def State.emit (s : State) (o : Out) : State := { s with out := s.out ++ [o] }

/-- The outcome of a meaning that goes on. -/
abbrev Out3 := Host.Outcome State Fault Refusal

/-! ## What every slot instruction does around its effect (R343, R357) -/

/-- Raise an issue trap of the current bundle (R323): the bundle itself is the resume bundle. -/
def State.issueTrap (s : State) (tr : Trap) : State :=
  let s' := s.takeTrap s.cur.tile s.cur.hw tr ⟨s.cur.pc, s.cur.pc, false, s.cc.litPaid, true⟩
  { s' with cur := { s'.cur with trap := some tr } }

/-- A slot instruction: its own checks; then its effect, when its guard is true, or what a false guard leaves. -/
def State.slot (s : State) (g : Guard) (chk : Option Trap) (act : State → State) (suppressed : State → State := id) : Out3 :=
  match chk with
  | some tr => .next (s.issueTrap tr)
  | none => .next (if s.cc.guard g then act s else suppressed s)

/-- The checks a list of conditions makes, the first that holds reported. -/
def firstTrap : List (Bool × Trap) → Option Trap
  | [] => none
  | (b, t) :: r => if b then some t else firstTrap r

def orTrap (a b : Option Trap) : Option Trap :=
  match a with
  | some t => some t
  | none => b

/-- Slot numbers of tinfo0.SLOT (R320). -/
def slA : Nat := 1
def slV (h : VHdr) : Nat := if h.v1 then 3 else 2
def slM : Nat := 4
def slS : Nat := 5
def slG : Nat := 6

def illegal5 (slot : Nat) : Trap := ⟨1, 5, slot, 0, 0⟩

/-! ## BAR0 access (R8, R113) -/

/-- The device sets bit k of the W1C register at BAR0 offset o in this cycle (R8). -/
def State.markSet (s : State) (o k : Nat) : State := { s with hport := { s.hport with sets := (o, k) :: s.hport.sets } }

/-- W1C bit k of the register at BAR0 offset o after a write of v: a bit the device sets in the same cycle ends set (R8). -/
def State.w1c (s : State) (o k v : Nat) (old : Bool) : Bool := old && (!bitAt v k || s.hport.sets.contains (o, k))

/-- A BAR0 register can be read and written: bring-up has reached stage 1 (R113). -/
def State.bar0Open (s : State) : Bool := s.pkg.powered && decide (1 ≤ s.hport.stage)

/-- A write to a BAR0 register has effect (R113). -/
def State.bar0Writes (s : State) : Bool := s.bar0Open && !s.hport.shutdown

end Sys2Proof.Machine
end

