-- ==== Sys2Proof/Machine/Operands.lean ====
section
/-! DEFINITION. Operand forms shared by the slots: view checks (R202), engine start cycles (R206), effective addresses
and post-increment (R403, R457), and ownership of banks, planes, entries and ports. -/

namespace Sys2Proof.Machine

open Sys2Proof

/-! ## Ownership (R149, R150, R158, R260) -/

/-- A codebook bank belongs to the issuing context's field. -/
def State.ownsBank (s : State) (b : Nat) : Bool := !s.cgrouped || (decide (8 ≤ b) == decide (s.cmember = 1))

/-- In an alternation group a member may name its own plane only. -/
def State.ownsPlane (s : State) (p : Nat) : Bool := !s.cgrouped || p == s.cmember

/-- The accumulator entries a command of this member may name: [lo, hi). -/
def State.entryRange (s : State) : Nat × Nat := if s.cgrouped then (32 * s.cmember, 32 * s.cmember + 32) else (0, 64)

/-- The first of `n` entries from `e` that the member does not own. -/
def State.badEntry (s : State) (e : Nat) : Nat → Option Nat
  | 0 => none
  | n + 1 => if e < s.entryRange.1 || s.entryRange.2 ≤ e then some e else State.badEntry s (e + 1) n

def protEntry (slot : Nat) (e : Nat) : Trap := ⟨6, 1, slot, 0x20000 + 2048 * e, 0⟩

/-- A check of entries: PROT 0x01 with the alias address of the first that fails (R440). -/
def State.entryTrap (s : State) (slot e n : Nat) : Option Trap := (s.badEntry e n).map (protEntry slot)

/-- The scratchpad bytes a member may name (R270). -/
def State.spLimit (s : State) : Nat := if s.cgrouped then 393216 else 786432

/-- The physical byte of a member-relative linear offset: member B's rows begin at row 256 (R158, R270). -/
def spPhys (member a : Nat) : Nat := 393216 * member + a

/-- The linear offset of a swizzled 16-byte line (R269). -/
def swizzledLine (l : Nat) : Nat := let r := l / 96; 96 * r + (l + r) % 96

/-- A stash map register taken apart (R273). -/
structure StMap where
  sline : Nat
  ssz   : Nat
  gsz   : Nat
  level : Nat
  id    : Nat
  en    : Bool
  gbase : Nat

def stMap (m : BitVec 128) : StMap :=
  let n := m.toNat
  ⟨fld n 0 13, fld n 13 4, fld n 17 4, fld n 24 3, fld n 27 4, bitAt n 31, fld n 64 64⟩

def Ctx.map (c : Ctx) (k : Nat) : StMap := stMap (c.stmap.rd 0 k)

/-- A scratchpad byte lies inside an enabled stash map of some context of the member's field on the tile (R274). -/
def State.inStash (s : State) (t : Nat) (f a : Nat) : Bool :=
  (List.range 4).any (fun h =>
    let c := s.ctx t h
    c.field == some f && (List.range 4).any (fun k =>
      let m := c.map k
      m.en && decide (128 * m.sline ≤ a) && decide (a < 128 * (m.sline + 2 ^ m.ssz))))

/-- The first scratchpad byte, of `n` 16-byte lines at linear or swizzled line `l` on, that the issuing context may not
reach. -/
def State.badLines (s : State) (swz : Bool) (l : Nat) : Nat → Option Nat
  | 0 => none
  | n + 1 =>
    let a := 16 * (if swz then swizzledLine l else l)
    if s.spLimit ≤ 16 * l || s.inStash s.cur.tile s.cf a then some (16 * l) else State.badLines s swz (l + 1) n

def protScratch (slot off : Nat) : Trap := ⟨6, 2, slot, off, 0⟩

/-! ## Views (R197, R202) -/

def alignView (slot a : Nat) : Trap := ⟨7, 1, slot, a, 0⟩

/-- The checks of R202 on view value `v` of register `n`, whose bytes span `span` from BASE: everything but the
generation. -/
def State.viewShape (s : State) (slot : Nat) (v : W64) (span : Nat) : Option Trap :=
  let ty := vType v
  let b := vBase v
  let idx := ty == 5 || ty == 6
  let e0 := (b - 0x20000) / 2048
  firstTrap [
    (decide (10 ≤ ty) || decide (16 ≤ vRows v) || (idx && vXw v == 3), illegal5 slot),
    (ty == 8 && (decide (b < 0x20000) || decide (2048 < (b - 0x20000) % 2048 + 8 * (vCols v + 1))), alignView slot b),
    (ty != 8 && decide (0x20000 ≤ b), alignView slot b),
    ((decide (b < 0x10000) && decide (0x10000 < b + span)) || (decide (b < 0x20000) && decide (0x20000 < b + span))
      || decide (0x40000 < b + span), alignView slot b),
    (!s.cc.sys && decide (0x10000 ≤ b) && decide (b < 0x20000), ⟨6, 1, slot, b, 0⟩),
    (ty == 8 && (s.badEntry e0 (vRows v + 1)).isSome, protEntry slot ((s.badEntry e0 (vRows v + 1)).getD e0)),
    (idx && !s.ownsBank (vCb v), ⟨2, 2, slot, vCb v, 0⟩)]

/-- The generation check of a view with GCHK set (R202, R266). -/
def State.viewGen (s : State) (slot n : Nat) (v : W64) : Option Trap :=
  let g := (s.ct.bank (vCb v)).gen
  if vGchk v && vGen v != g then some ⟨5, 2, slot, vCb v + 16 * vGen v + 4096 * g, n⟩ else none

/-- R202 on view register `n`. -/
def State.viewCheck (s : State) (slot n : Nat) : Option Trap :=
  let v := s.cc.vreg n
  orTrap (s.viewShape slot v (footprint (vType v))) (s.viewGen slot n v)

/-- R202 on a view register whose bytes span more than its own footprint (R259). -/
def State.viewCheckSpan (s : State) (slot n span : Nat) : Option Trap :=
  let v := s.cc.vreg n
  orTrap (s.viewShape slot v span) (s.viewGen slot n v)

/-- The accumulator entries that hold register-space bytes [base, base + n): the first, and how many. -/
def aliasEntries (base n : Nat) : Nat × Nat :=
  let e := (max base 0x20000 - 0x20000) / 2048
  (e, (base + n - 0x20000 + 2047) / 2048 - e)

/-- An image of `n` bytes at BASE of a view lies within one region that the mode reaches (R195, R197, R445, R455): ALIGN, then PROT. -/
def State.imageCheck (s : State) (slot base n : Nat) : Option Trap :=
  firstTrap [
    ((decide (base < 0x10000) && decide (0x10000 < base + n)) || (decide (base < 0x20000) && decide (0x20000 < base + n))
      || decide (0x40000 < base + n), alignView slot base),
    (!s.cc.sys && decide (0x10000 ≤ base) && decide (base < 0x20000), ⟨6, 1, slot, base, 0⟩)]

/-- An image in the accumulator alias holds entries of the member's range alone (R440): PROT 0x01. -/
def State.imageRange (s : State) (slot base n : Nat) : Option Trap :=
  let (e, k) := aliasEntries base n
  firstTrap [(decide (0x20000 ≤ base) && (s.badEntry e k).isSome, protEntry slot ((s.badEntry e k).getD e))]

/-- A command that streams rows through the array (R446). -/
def ECmd.isStream (c : ECmd) : Bool :=
  match c.ins with
  | .stream .. => true
  | .streamt .. => true
  | _ => false

/-! ## Engine start cycles (R206, R345) -/

/-- The tcyc whose bits [19:0] are `f` and which lies in c − 2^19 + 1 to c + 2^19; as an integer, for it may lie before 0. -/
def startCycle (c f : Nat) : Int :=
  let lo : Int := (c : Int) - 2 ^ 19 + 1
  lo + ((f : Int) - lo) % (2 ^ 20)

def State.startOf (s : State) (tm : Timing) : Int :=
  match tm with
  | .now => (s.ctcyc : Int)
  | .reg r => startCycle s.ctcyc ((s.cc.sreg r.toNat).toNat % 2 ^ 20)
  | .start f => startCycle s.ctcyc f.toNat

def timing (slot sub : Nat) (t : Int) (pc : Option Nat) : Trap :=
  ⟨4, sub, slot, wrap 64 t, match pc with
    | some p => p % 2 ^ 15 + 2 ^ 15
    | none => 0⟩

/-- The scalar source of a timing field. -/
def Timing.field : Timing → Nat
  | .now => 2 ^ 21
  | .reg s => 2 ^ 20 + s.toNat
  | .start n => n.toNat

/-! ## Addresses (R403, R457) -/

def revBits (w v : Nat) : Nat := (List.range w).foldl (fun acc k => if bitAt v k then acc + 2 ^ (w - 1 - k) else acc) 0

/-- The post-incremented value of an address register (R403). -/
def postInc (c : ACfg) (a : W32) : W32 :=
  match c.mode with
  | 0 => a + c.inc.signExtend 32
  | 1 =>
    let b : Int := c.base.toNat
    .ofInt 32 (b + ((a.toNat : Int) - b + c.inc.toInt) % (c.len.toNat : Int))
  | _ =>
    let f := fld a.toNat c.zs c.w
    let f := revBits c.w (wrap c.w ((revBits c.w f : Int) + c.inc.toInt))
    .ofNat 32 (setFld a.toNat c.zs c.w f)

/-- The effective address of B, A, AN (R457). -/
def Ctx.ea (c : Ctx) (x : Ea) : Nat :=
  ((c.sreg x.b.toNat).toNat + (if x.an then 0 else (c.areg x.a.toNat).toNat)) % 2 ^ 64

/-- The post-increment of an instruction whose guard is true lands at issue + 1. -/
def State.postIncr (s : State) (slot : Nat) (x : Ea) : State :=
  if x.pi && !x.an then
    let c := s.cc
    let n := x.a.toNat
    s.result 1 phLand slot 0 (.areg c.set n (postInc (c.acfg n) (c.areg n)))
  else s

/-- Write a scalar result of the S or G slot at the given latency. -/
def State.scalarResult (s : State) (lat slot : Nat) (d : BitVec 5) (v : W64) : State :=
  s.result lat phLand slot 0 (.sreg (s.cc.sSet d.toNat) d.toNat v)

/-! ## Where a tile is (R15, R256) -/

/-- Dies are quadrants of 8 × 8 tiles of the 16 × 16 mesh (R16). -/
def dieOfTile (t : Nat) : Nat := 2 * (t / 16 / 8) + t % 16 / 8

/-- The neighbour of a tile through mesh port 0 N, 1 E, 2 S, 3 W. -/
def neighbour (t port : Nat) : Option Nat :=
  let x := t % 16
  let y := t / 16
  match port with
  | 0 => if y = 0 then none else some (t - 16)
  | 1 => if x = 15 then none else some (t + 1)
  | 2 => if y = 15 then none else some (t + 16)
  | _ => if x = 0 then none else some (t - 1)

/-- A tile of the field's rectangle. -/
def Field.hasTile (f : Field) (t : Nat) : Bool :=
  let x := t % 16
  let y := t / 16
  decide (f.origin % 16 ≤ x) && decide (x < f.origin % 16 + f.w) && decide (f.origin / 16 ≤ y)
    && decide (y < f.origin / 16 + f.h)

def Field.placed (f : Field) : Bool :=
  match f.state with
  | .waiting => false
  | .ready => false
  | .evicted => false
  | _ => true

/-- The neighbour tile of a port when it is a tile of the issuing field (R446, R471). -/
def State.fieldNeighbour (s : State) (port : Nat) : Option Nat :=
  match neighbour s.cur.tile port with
  | none => none
  | some t => if s.cfield.hasTile t then some t else none

/-- Hop time of the mesh: 2 cycles within a die, 12 across a die boundary (R256). -/
def hopCycles (a b : Nat) : Nat := if dieOfTile a = dieOfTile b then 2 else 12

def oppositePort (p : Nat) : Nat := (p + 2) % 4

/-- Tiles of a field, in ascending tile number. -/
def Field.tiles (f : Field) : List Nat :=
  (List.range f.h).flatMap (fun y => (List.range f.w).map (fun x => 16 * (f.origin / 16 + y) + f.origin % 16 + x))

/-- The hardware contexts a field owns on each of its tiles (R149, R158). -/
def Field.hws (f : Field) : List Nat := (List.range f.ctxs).map (fun n => 2 * f.member + n)

/-- Every (tile, hardware context) of a field. -/
def Field.places (f : Field) : List (Nat × Nat) := f.tiles.flatMap (fun t => f.hws.map (fun h => (t, h)))

end Sys2Proof.Machine
end

