-- ==== Sys2Proof/WellFormed.lean ====
section
/-! DEFINITION. Which terms of Instr stand for something: the field limits that the instruction chapters give (R349,
R356), and the port and length limits of the package's events.  A term that fails is one that the decoder never gives. -/

namespace Sys2Proof

/-- The selectors of R395. -/
def listedSelector (sel : BitVec 12) : Bool :=
  let n := sel.toNat
  n ≤ 0x00D || (0x010 ≤ n && n ≤ 0x015) || (0x018 ≤ n && n ≤ 0x027) || (0x030 ≤ n && n ≤ 0x03F)
    || (0x040 ≤ n && n ≤ 0x045) || (0x100 ≤ n && n ≤ 0x102) || n == 0x800 || n == 0x801

/-- AN = 1 leaves no use for A and PI (R457). -/
def Ea.wf (ea : Ea) : Bool := !ea.an || (ea.a == 0 && !ea.pi)

/-- The request word of PASS (R390). -/
def passReqOk (req : BitVec 32) : Bool :=
  let n := req.toNat
  n % 4 != 3 && decide (1 ≤ n / 4 % 4096) && decide (n / 4 % 4096 ≤ 2400) && n / 2 ^ 20 == 0

/-- RF = 3 is reserved (R408). -/
def rfOk (rf : BitVec 2) : Bool := rf != 3

def VAmt.ok (lim : Nat) : VAmt → Bool
  | .imm n => decide (n.toNat < lim)
  | .scalar _ => true

/-- A scratchpad access names no event and no flag view (R459). -/
def spaceOk (sp : Bool) (e : BitVec 4) (fv : Option (BitVec 6)) : Bool := sp || (e == 0 && fv == none)

/-- A port number of R46. -/
def portOk (p : BitVec 3) : Bool := decide (p.toNat < 6)

def flitOk (f : Option (List Byte)) : Bool :=
  match f with
  | none => true
  | some bs => bs.length == 64

def Pkt.wf (p : Pkt) : Bool := decide (p.q < 1024) && decide (p.seq < 65536) && p.bytes.length == 64

/-- The field limits of a term. -/
def Instr.wf : Instr → Bool
  | .portTrainingDone port r => portOk port && r.ok
  | .timeFlitReceive port f _ => portOk port && flitOk f
  | .dataFlitReceive port x f => portOk port && flitOk f && decide (1 ≤ x.slot) && decide (x.slot ≤ 11)
  | .portRetrain port => portOk port
  | .noticePlaced port f => portOk port && f.length == 64
  | .noticeFreeze port f => portOk port && f.length == 64
  | .noticeResume port f => portOk port && f.length == 64
  | .noticeArrived port f => portOk port && f.length == 64
  | .noticeDone port f => portOk port && f.length == 64
  | .hbmStandardAccess _ _ row _ _ _ => decide (row < 49152)
  | .shlImm _ _ _ imm => decide (imm.toNat ≤ 63)
  | .shrImm _ _ _ imm => decide (imm.toNat ≤ 63)
  | .sraImm _ _ _ imm => decide (imm.toNat ≤ 63)
  | .bitc _ _ _ fn => decide (fn.toNat ≤ 0x0A)
  | .cmpReg _ _ cc _ _ => decide (cc.toNat ≤ 0xB)
  | .cmpImm _ _ cc _ _ => decide (cc.toNat ≤ 0xB)
  | .br _ cc _ _ => decide (cc.toNat ≤ 5)
  | .lbrk _ k => decide (1 ≤ k.toNat) && decide (k.toNat ≤ 6)
  | .pass _ _ req => passReqOk req
  | .passCycleReg _ _ req _ => passReqOk req
  | .gets _ _ r => listedSelector r
  | .setsReg _ r _ => listedSelector r
  | .setsImm _ r _ => listedSelector r
  | .setsOr _ r _ => listedSelector r
  | .setsClr _ r _ => listedSelector r
  | .vadd _ _ _ _ rf _ => rfOk rf
  | .vsub _ _ _ _ rf _ => rfOk rf
  | .vmul _ _ _ _ rf _ => rfOk rf
  | .vfma _ _ _ _ _ rf _ => rfOk rf
  | .vdiv h _ _ _ rf _ => !h.v1 && rfOk rf
  | .vsqrt h _ _ rf _ => !h.v1 && rfOk rf
  | .vrsq h _ _ rf _ => !h.v1 && rfOk rf
  | .vexp2 h _ _ rf _ => !h.v1 && rfOk rf
  | .vlog2 h _ _ rf _ => !h.v1 && rfOk rf
  | .vcvt _ _ _ rf _ => rfOk rf
  | .vsplat _ _ _ rf _ => rfOk rf
  | .vcmp _ _ _ _ cc => decide (cc.toNat ≤ 6)
  | .vmskPre _ _ n => decide (n.toNat ≤ 1024)
  | .vmskRect _ _ nr nc => decide (nr.toNat ≤ 16) && decide (nc.toNat ≤ 64)
  | .vrotr _ _ _ n => n.ok 16
  | .vrotc _ _ _ n => n.ok 64
  | .vbcr _ _ _ n => n.ok 16
  | .vbcc _ _ _ n => n.ok 64
  | .vshuf h _ _ _ => !h.v1
  | .vredr _ _ _ op _ rf _ => op != 3 && rfOk rf
  | .vredc _ _ _ op _ rf _ => op != 3 && rfOk rf
  | .vshpType _ _ ty _ _ => decide (ty.toNat ≤ 9)
  | .vqlt h _ _ _ _ _ => !h.v1
  | .vqltOffsets h _ _ _ _ _ _ => !h.v1
  | .wloadg _ n _ _ _ _ _ => decide (n.toNat ≤ 48)
  | .drain _ _ _ _ q cv sc _ sat _ => decide (q.toNat ≤ 47) && sc != 3 && (!sat || decide (cv.toNat ≤ 1))
  | .aclr _ e0 nm1 => decide (e0.toNat + nm1.toNat ≤ 63)
  | .cbld _ _ first cntm1 _ => decide (first.toNat + cntm1.toNat + 1 ≤ 256)
  | .lds _ _ ea sp _ _ e fv => ea.wf && spaceOk sp e fv
  | .sts _ _ ea sp _ e fv => ea.wf && spaceOk sp e fv
  | .tld _ _ ea sp _ e fv lu => ea.wf && spaceOk sp e fv && (!lu || sp)
  | .tst _ _ ea sp _ e fv => ea.wf && spaceOk sp e fv
  | .atom _ _ ea _ opc _ s2 _ _ => ea.wf && decide (opc.toNat ≤ 9) && (opc == 9 || s2 == 0)
  | .atomt _ _ ea _ opc _ _ => ea.wf && decide (opc.toNat ≤ 5)
  | .hintReq _ ea _ _ => ea.wf
  | .hintFill _ ea _ _ => ea.wf
  | .hintDrop _ ea _ _ => ea.wf
  | .hintL2 _ ea _ _ => ea.wf
  | .bcall _ _ a _ => decide (a.toNat ≤ 26)
  | .fence _ x y _ => x != 0 && y != 0
  | _ => true

end Sys2Proof
end

