-- ==== Sys2Proof/Machine/Scalar.lean ====
section
/-! DEFINITION. Integer arithmetic, constants, compares and predicates of the S slot (R374 to R380). -/

namespace Sys2Proof.Machine

open Sys2Proof

/-- An encoding whose field lies outside its range (R349, R356). -/
def Instr.rangeTrap (i : Instr) (slot : Nat) : Option Trap := if i.wf then none else some (illegal5 slot)

/-- A register form of format SA: %sD := f(sA, sB) at the latency. -/
def aluReg (f : W64 → W64 → W64) (lat : Nat) (g : Guard) (d a b : BitVec 5) (s : State) : Out3 :=
  s.slot g none (fun s => s.scalarResult lat slS d (f (s.cc.sreg a.toNat) (s.cc.sreg b.toNat)))

/-- An immediate form: b is IMM sign-extended from 42 bits (R375). -/
def aluImm (f : W64 → W64 → W64) (lat : Nat) (i : Instr) (g : Guard) (d a : BitVec 5) (imm : BitVec 42) (s : State) : Out3 :=
  s.slot g (Instr.rangeTrap i slS) (fun s => s.scalarResult lat slS d (f (s.cc.sreg a.toNat) (imm.signExtend 64)))

def mulhOf (a b : W64) : W64 := .ofInt 64 (a.toInt * b.toInt / 2 ^ 64)
def shlOf (a b : W64) : W64 := a <<< (b.toNat % 64)
def shrOf (a b : W64) : W64 := a >>> (b.toNat % 64)
def sraOf (a b : W64) : W64 := a.sshiftRight (b.toNat % 64)
def minOf (a b : W64) : W64 := if a.sle b then a else b
def maxOf (a b : W64) : W64 := if b.sle a then a else b

def execAddReg (g : Guard) (d a b : BitVec 5) (s : State) : Out3 := aluReg (· + ·) 1 g d a b s
def execAddImm (g : Guard) (d a : BitVec 5) (imm : BitVec 42) (s : State) : Out3 :=
  aluImm (· + ·) 1 (.addImm g d a imm) g d a imm s
def execSubReg (g : Guard) (d a b : BitVec 5) (s : State) : Out3 := aluReg (· - ·) 1 g d a b s
def execSubImm (g : Guard) (d a : BitVec 5) (imm : BitVec 42) (s : State) : Out3 :=
  aluImm (· - ·) 1 (.subImm g d a imm) g d a imm s
def execMulReg (g : Guard) (d a b : BitVec 5) (s : State) : Out3 := aluReg (· * ·) 3 g d a b s
def execMulImm (g : Guard) (d a : BitVec 5) (imm : BitVec 42) (s : State) : Out3 :=
  aluImm (· * ·) 3 (.mulImm g d a imm) g d a imm s
def execMulhReg (g : Guard) (d a b : BitVec 5) (s : State) : Out3 := aluReg mulhOf 3 g d a b s
def execMulhImm (g : Guard) (d a : BitVec 5) (imm : BitVec 42) (s : State) : Out3 :=
  aluImm mulhOf 3 (.mulhImm g d a imm) g d a imm s
def execAndReg (g : Guard) (d a b : BitVec 5) (s : State) : Out3 := aluReg (· &&& ·) 1 g d a b s
def execAndImm (g : Guard) (d a : BitVec 5) (imm : BitVec 42) (s : State) : Out3 :=
  aluImm (· &&& ·) 1 (.andImm g d a imm) g d a imm s
def execOrReg (g : Guard) (d a b : BitVec 5) (s : State) : Out3 := aluReg (· ||| ·) 1 g d a b s
def execOrImm (g : Guard) (d a : BitVec 5) (imm : BitVec 42) (s : State) : Out3 :=
  aluImm (· ||| ·) 1 (.orImm g d a imm) g d a imm s
def execXorReg (g : Guard) (d a b : BitVec 5) (s : State) : Out3 := aluReg (· ^^^ ·) 1 g d a b s
def execXorImm (g : Guard) (d a : BitVec 5) (imm : BitVec 42) (s : State) : Out3 :=
  aluImm (· ^^^ ·) 1 (.xorImm g d a imm) g d a imm s
def execShlReg (g : Guard) (d a b : BitVec 5) (s : State) : Out3 := aluReg shlOf 1 g d a b s
def execShlImm (g : Guard) (d a : BitVec 5) (imm : BitVec 42) (s : State) : Out3 :=
  aluImm shlOf 1 (.shlImm g d a imm) g d a imm s
def execShrReg (g : Guard) (d a b : BitVec 5) (s : State) : Out3 := aluReg shrOf 1 g d a b s
def execShrImm (g : Guard) (d a : BitVec 5) (imm : BitVec 42) (s : State) : Out3 :=
  aluImm shrOf 1 (.shrImm g d a imm) g d a imm s
def execSraReg (g : Guard) (d a b : BitVec 5) (s : State) : Out3 := aluReg sraOf 1 g d a b s
def execSraImm (g : Guard) (d a : BitVec 5) (imm : BitVec 42) (s : State) : Out3 :=
  aluImm sraOf 1 (.sraImm g d a imm) g d a imm s
def execMinReg (g : Guard) (d a b : BitVec 5) (s : State) : Out3 := aluReg minOf 1 g d a b s
def execMinImm (g : Guard) (d a : BitVec 5) (imm : BitVec 42) (s : State) : Out3 :=
  aluImm minOf 1 (.minImm g d a imm) g d a imm s
def execMaxReg (g : Guard) (d a b : BitVec 5) (s : State) : Out3 := aluReg maxOf 1 g d a b s
def execMaxImm (g : Guard) (d a : BitVec 5) (imm : BitVec 42) (s : State) : Out3 :=
  aluImm maxOf 1 (.maxImm g d a imm) g d a imm s

/-! ## BITC (R376) -/

def popcount (n : Nat) : Nat := sumNat ((List.range 64).map (fun k => b2n (bitAt n k)))

/-- Leading zeros of 64 bits: 64 when there is no 1. -/
def clz (n : Nat) : Nat := 64 - (if n = 0 then 0 else Nat.log2 n + 1)

def ctz (n : Nat) : Nat := ((List.range 64).find? (fun k => bitAt n k)).getD 64

def bitcOf (fn : Nat) (a : W64) : W64 :=
  let n := a.toNat
  match fn with
  | 0 => .ofNat 64 (popcount n)
  | 1 => .ofNat 64 (clz n)
  | 2 => .ofNat 64 (ctz n)
  | 3 => .ofNat 64 (revBits 64 n)
  | 4 => .ofNat 64 (leNat (leBytes 8 n).reverse)
  | 5 => (a.setWidth 8).signExtend 64
  | 6 => (a.setWidth 16).signExtend 64
  | 7 => (a.setWidth 32).signExtend 64
  | 8 => (a.setWidth 8).setWidth 64
  | 9 => (a.setWidth 16).setWidth 64
  | _ => (a.setWidth 32).setWidth 64

def execBitc (g : Guard) (d a : BitVec 5) (fn : BitVec 6) (s : State) : Out3 :=
  s.slot g (Instr.rangeTrap (.bitc g d a fn) slS) (fun s => s.scalarResult 1 slS d (bitcOf fn.toNat (s.cc.sreg a.toNat)))

/-- LI (R377): IMM sign-extended from 48 bits. -/
def execLi (g : Guard) (d : BitVec 5) (imm : BitVec 48) (s : State) : Out3 :=
  s.slot g none (fun s => s.scalarResult 1 slS d (imm.signExtend 64))

/-! ## CMP, PLOG, SEL (R378 to R380) -/

def condOf (cc : Nat) (a b : W64) : Bool :=
  match cc with
  | 0 => a == b
  | 1 => a != b
  | 2 => a.slt b
  | 3 => b.sle a
  | 4 => a.sle b
  | 5 => b.slt a
  | 6 => a.ult b
  | 7 => b.ule a
  | 8 => a.ule b
  | 9 => b.ult a
  | 10 => (a &&& b) != 0
  | _ => (a &&& b) == 0

/-- Write a predicate result of the S slot at latency 1. -/
def State.predResult (s : State) (d : BitVec 3) (v : Bool) : State :=
  s.result 1 phLand slS 0 (.preg (s.cc.pSet d.toNat) d.toNat v)

def execCmpReg (g : Guard) (pd : BitVec 3) (cc : BitVec 4) (a b : BitVec 5) (s : State) : Out3 :=
  s.slot g (Instr.rangeTrap (.cmpReg g pd cc a b) slS)
    (fun s => s.predResult pd (condOf cc.toNat (s.cc.sreg a.toNat) (s.cc.sreg b.toNat)))

def execCmpImm (g : Guard) (pd : BitVec 3) (cc : BitVec 4) (a : BitVec 5) (imm : BitVec 39) (s : State) : Out3 :=
  s.slot g (Instr.rangeTrap (.cmpImm g pd cc a imm) slS)
    (fun s => s.predResult pd (condOf cc.toNat (s.cc.sreg a.toNat) (imm.signExtend 64)))

/-- PLOG writes TT[2y + x]. -/
def execPlog (g : Guard) (pd : BitVec 3) (tt : BitVec 4) (pa pb : Guard) (s : State) : Out3 :=
  s.slot g none (fun s =>
    s.predResult pd (bitAt tt.toNat (2 * b2n (s.cc.guard pb) + b2n (s.cc.guard pa))))

def execSel (g : Guard) (d : BitVec 5) (ps : Guard) (a b : BitVec 5) (s : State) : Out3 :=
  s.slot g none (fun s =>
    s.scalarResult 1 slS d (if s.cc.guard ps then s.cc.sreg a.toNat else s.cc.sreg b.toNat))

end Sys2Proof.Machine
end

