-- ==== Sys2Proof/Machine/Control.lean ====
section
/-! DEFINITION. Branches, calls and hardware loops (R177 to R185, R381 to R385), and the control instructions that touch
only the context: WAIT, TRAP, TRET, UIRET (R386, R387, R397 to R399). -/

namespace Sys2Proof.Machine

open Sys2Proof

/-! ## Code order (R177, R178, R327) -/

/-- Halfwords in the store a context fetches from. -/
def State.codeSize (s : State) (c : Ctx) : Nat := if c.sys then 8192 else s.segSize c.fieldNum

/-- The halfword at a PC of a context, modulo its segment: 0xFFFE where no image stands (R177). -/
def State.codeHalf (s : State) (t : Nat) (c : Ctx) (pc : Nat) : Half :=
  let pc := pc % s.codeSize c
  if c.sys then (s.tile t).sysCode.rd 0 pc
  else (s.tile t).code.rd 0xFFFE ((if (s.field c.fieldNum).member = 1 then 16384 else 0) + pc)

/-- The PC that follows a bundle in code order. -/
def State.codeNext (s : State) (t : Nat) (c : Ctx) (pc : Nat) : Nat :=
  (pc + (if s.codeHalf t c pc = 0xFFFF then 25 else 1)) % s.codeSize c

/-- The bundle is a delay bundle of a taken branch (R182). -/
def State.inDelay (s : State) : Bool := decide (0 < s.cur.dly)

/-- The bundle is the body end of the top loop entry (R184), which a handler does not check (R212). -/
def State.bodyEnd (s : State) : Bool :=
  !s.cc.active && (match s.cc.loops.getLast? with
    | some e => e.fin == s.cur.pc
    | none => false)

def illegal4 : Trap := ⟨1, 4, slS, 0, 0⟩

/-- ILLEGAL 0x04 where a control transfer may not stand (R182, R185). -/
def State.ctlTrap (s : State) (g : Guard) : Option Trap :=
  if s.cc.guard g && (s.inDelay || s.bodyEnd) then some illegal4 else none

/-- Take a branch: two delay bundles, then the target (R182, R382). -/
def State.branchTo (s : State) (tgt : Nat) : State :=
  { s with cur := { s.cur with taken := some (tgt % s.codeSize s.cc) } }

def regTarget (v : W64) : Nat := v.toNat % 2 ^ 15

/-- The link of a CALL: the PC past its second delay bundle (R382). -/
def State.linkPc (s : State) : Nat :=
  s.codeNext s.cur.tile s.cc (s.codeNext s.cur.tile s.cc s.cur.next)

def State.call (s : State) (tgt : Nat) : State :=
  (s.scalarResult 1 slS 31 (.ofNat 64 s.linkPc)).branchTo tgt

def brCond (cc : Nat) (a : W64) : Bool :=
  match cc with
  | 0 => a == 0
  | 1 => a != 0
  | 2 => a.slt 0
  | 3 => (0 : W64).sle a
  | 4 => a.sle 0
  | _ => (0 : W64).slt a

def chkBr (g : Guard) (cc : BitVec 4) (a : BitVec 5) (tg : BitVec 15) (s : State) : Option Trap :=
  orTrap (Instr.rangeTrap (.br g cc a tg) slS) (s.ctlTrap g)

def execBr (g : Guard) (cc : BitVec 4) (a : BitVec 5) (target : BitVec 15) (s : State) : Out3 :=
  s.slot g (chkBr g cc a target s)
    (fun s => if brCond cc.toNat (s.cc.sreg a.toNat) then s.branchTo target.toNat else s)
def execJmpLabel (g : Guard) (target : BitVec 15) (s : State) : Out3 :=
  s.slot g (s.ctlTrap g) (fun s => s.branchTo target.toNat)
def execJmpReg (g : Guard) (a : BitVec 5) (s : State) : Out3 :=
  s.slot g (s.ctlTrap g) (fun s => s.branchTo (regTarget (s.cc.sreg a.toNat)))
def execCallLabel (g : Guard) (target : BitVec 15) (s : State) : Out3 :=
  s.slot g (s.ctlTrap g) (fun s => s.call target.toNat)
def execCallReg (g : Guard) (a : BitVec 5) (s : State) : Out3 :=
  s.slot g (s.ctlTrap g) (fun s => s.call (regTarget (s.cc.sreg a.toNat)))
def execRet (g : Guard) (a : BitVec 5) (s : State) : Out3 :=
  s.slot g (s.ctlTrap g) (fun s => s.branchTo (regTarget (s.cc.sreg a.toNat)))

/-! ## Loops (R183 to R185, R384, R385) -/

def chkLoop (g : Guard) (endPc : Nat) (s : State) : Option Trap :=
  if endPc % s.codeSize s.cc = s.cur.pc then some (illegal5 slS)
  else if s.cc.guard g && (decide (6 ≤ s.cc.loops.length) || s.inDelay || s.bodyEnd || s.cc.active) then some illegal4
  else none

/-- LOOP (R384): a count of 0 skips the body; otherwise an entry is pushed. -/
def State.loop (s : State) (count endPc : Nat) : State :=
  let e := endPc % s.codeSize s.cc
  if count = 0 then
    { s with cur := { s.cur with jump := some (s.codeNext s.cur.tile s.cc e) } }
  else s.modCC (fun c => { c with loops := c.loops ++ [⟨s.cur.next, e, count, 0⟩] })

def execLoopReg (g : Guard) (a : BitVec 5) (endPc : BitVec 15) (s : State) : Out3 :=
  s.slot g (chkLoop g endPc.toNat s) (fun s => s.loop ((s.cc.sreg a.toNat).toNat % 2 ^ 32) endPc.toNat)
def execLoopImm (g : Guard) (n : BitVec 16) (endPc : BitVec 15) (s : State) : Out3 :=
  s.slot g (chkLoop g endPc.toNat s) (fun s => s.loop n.toNat endPc.toNat)

def chkLbrk (g : Guard) (k : BitVec 16) (s : State) : Option Trap :=
  orTrap (Instr.rangeTrap (.lbrk g k) slS)
    (if s.cc.guard g && (s.inDelay || s.cc.active || decide (s.cc.loops.length < k.toNat)) then some illegal4 else none)

/-- LBRK (R385): pop the top k entries; at the END of the top entry the pop replaces the end check. -/
def execLbrk (g : Guard) (k : BitVec 16) (s : State) : Out3 :=
  s.slot g (chkLbrk g k s) (fun s =>
    let s := s.modCC (fun c => { c with loops := c.loops.take (c.loops.length - k.toNat) })
    { s with cur := { s.cur with popped := true } })

/-! ## WAIT (R386, R387)

The issue selector asks `waitMet` before a bundle issues; a WAIT that issues has no effect of its own. -/

def Ctx.waitMet (c : Ctx) (tcyc : Nat) : Instr → Bool
  | .waitImm g e imm => !c.guard g || (c.ereg e.toNat).sle imm
  | .waitReg g e r => !c.guard g || (c.ereg e.toNat).sle ((c.sreg r.toNat).setWidth 32)
  | .waitTcyc g r => !c.guard g || decide ((c.sreg r.toNat).toNat ≤ tcyc)
  | _ => true

/-- A WAIT whose condition does not hold issues nothing: the context stays at its bundle (R387). -/
def State.wait (s : State) (i : Instr) : Out3 :=
  .next (if s.cc.waitMet s.ctcyc i then s else { s with cur := { s.cur with jump := some s.cur.pc } })

def execWaitImm (g : Guard) (e : BitVec 4) (imm : W32) (s : State) : Out3 := s.wait (.waitImm g e imm)
def execWaitReg (g : Guard) (e : BitVec 4) (r : BitVec 5) (s : State) : Out3 := s.wait (.waitReg g e r)
def execWaitTcyc (g : Guard) (r : BitVec 5) (s : State) : Out3 := s.wait (.waitTcyc g r)

/-! ## TRAP, TRET, UIRET (R397 to R399) -/

/-- TRAP: the SOFT trap is taken after the bundle's other slots have acted (R397). -/
def execTrap (g : Guard) (k : Half) (s : State) : Out3 :=
  s.slot g (s.ctlTrap g) (fun s => { s with cur := { s.cur with soft := some k } })

/-- A system instruction of the S, M or A slot in user mode: PRIV 0x01 (R357, R398), whatever its guard (R343).  tinfo1
holds the opcode (R440; for the S and M slots DEDUCED, log entry 10). -/
def State.sysTrap (s : State) (slot op : Nat) : Option Trap := if s.cc.sys then none else some ⟨2, 1, slot, op, 0⟩

/-- A service entry is in progress: CAUSE 0x00 with SUB 0x01 or 0x02 (R328). -/
def Ctx.inService (c : Ctx) : Bool := fld c.tinfo0.toNat 0 8 == 0 && fld c.tinfo0.toNat 8 8 != 0

def chkTret (g : Guard) (s : State) : Option Trap :=
  orTrap (s.sysTrap slS 0x20)
    (if s.cc.guard g && (s.inDelay || s.bodyEnd || !s.cc.rec0 || s.cc.deleg || s.cc.inService) then some illegal4 else none)

/-- TRET (R398): back to user mode and to the sequencer state of record 0, which is replayed with the issue cycle of the bundle at RPC as
g (R330); a malformed record is none (R330). -/
def execTret (g : Guard) (s : State) : Out3 :=
  s.slot g (chkTret g s) (fun s =>
    let s :=
      if (badDesc s.cc.catchMem 0x400 (min 192 (s.cc.catchMem.num 0 4))).isSome then s.returnFrom s.cur.tile s.cur.hw s.now false
      else s.modCC (fun c => { c.restoreSeq 0 with sys := false, smap := c.smap ||| 1, back := true })
    { s with cur := { s.cur with ended := true } })

def chkUiret (g : Guard) (s : State) : Option Trap :=
  if s.cc.guard g && (!s.cc.active || s.cc.sys || s.inDelay || s.bodyEnd) then some illegal4 else none

/-- UIRET (R399, R212): two delay bundles, after which the return takes place at the next bundle. -/
def execUiret (g : Guard) (s : State) : Out3 :=
  s.slot g (chkUiret g s) (fun s =>
    (s.modCC (fun c => { c with uiret := true })).branchTo (s.cc.uipc.toNat % 2 ^ 15))

end Sys2Proof.Machine
end

