-- ==== Sys2Proof/Machine/SpecialRegs.lean ====
section
/-! DEFINITION. View registers and special registers (R392 to R396): VIEW, GETS and SETS. -/

namespace Sys2Proof.Machine

open Sys2Proof

/-- Write view register n at latency 1 (R392). -/
def State.viewResult (s : State) (n : Nat) (v : W64) : State :=
  s.result 1 phLand slS 0 (.vreg s.cc.set n (viewStore v))

def execView (g : Guard) (t : BitVec 6) (r : BitVec 5) (s : State) : Out3 :=
  s.slot g none (fun s => s.viewResult t.toNat (s.cc.sreg r.toNat))

def execViewCopy (g : Guard) (t m : BitVec 6) (s : State) : Out3 :=
  s.slot g none (fun s => s.viewResult t.toNat (s.cc.vreg m.toNat))

def execViewBase (g : Guard) (t : BitVec 6) (r : BitVec 5) (imm : W32) (s : State) : Out3 :=
  s.slot g none (fun s =>
    s.viewResult t.toNat
      (.ofNat 64 (setFld (s.cc.vreg t.toNat).toNat 0 18 (s.cc.sreg r.toNat + imm.signExtend 64).toNat)))

def execViewGen (g : Guard) (t : BitVec 6) (gen : Byte) (s : State) : Out3 :=
  s.slot g none (fun s => s.viewResult t.toNat (.ofNat 64 (setFld (s.cc.vreg t.toNat).toNat 37 8 gen.toNat)))

/-- lkport n (R55): bit 0 the port is up, lanes in [5:1], latency in [17:6], epoch in [25:18], as TOR_PORTn. -/
def Port.word (p : Port) : W32 :=
  .ofNat 32 (b2n p.up + 2 * (p.lanes % 32) + 2 ^ 6 * (p.lat % 4096) + 2 ^ 18 * (p.epoch % 256))

def State.port (s : State) (n : Nat) : Port := s.torus.ports.rd Port.idle n

/-- GETS of a selector (R393, R395); sround as it stood at issue, whatever a VQLT of the bundle draws (R12). -/
def State.getSpecial (s : State) (sel : Nat) : W64 :=
  if sel = 0x000 then .ofNat 64 s.ctcyc
  else if sel = 0x002 then (s.cur.sround.getD (s.ct.sroundOf s.cmember)).setWidth 64
  else if 0x010 ≤ sel && sel ≤ 0x015 then (s.port (sel - 0x010)).word.setWidth 64
  else if 0x040 ≤ sel && sel ≤ 0x045 then
    match s.cc.loops[sel - 0x040]? with
    | some e => .ofNat 64 e.index
    | none => 0
  else s.cc.special sel

/-- A selector the table does not list is ILLEGAL 0x05; a system-only selector in user mode is PRIV 0x01, whatever the
guard (R393). -/
def chkSel (i : Instr) (sel : BitVec 12) (s : State) : Option Trap :=
  orTrap (Instr.rangeTrap i slS)
    (if decide (0x800 ≤ sel.toNat) && !s.cc.sys then some ⟨2, 1, slS, sel.toNat, 0⟩ else none)

def execGets (g : Guard) (d : BitVec 5) (sel : BitVec 12) (s : State) : Out3 :=
  s.slot g (chkSel (.gets g d sel) sel s) (fun s => s.scalarResult 1 slS d (s.getSpecial sel.toNat))

/-- Selectors that SETS leaves alone: read-only registers (R393). -/
def readOnlySel (sel : Nat) : Bool :=
  sel == 0x000 || sel == 0x00C || sel == 0x00D || (decide (0x010 ≤ sel) && decide (sel ≤ 0x01F))
    || (decide (0x040 ≤ sel) && decide (sel ≤ 0x045)) || (decide (0x100 ≤ sel) && decide (sel ≤ 0x102))

/-- A SETS lands at issue + 1, before the device's updates of that cycle (R394). -/
def State.setsResult (s : State) (sel : BitVec 12) (op : SetOp) (v : W64) : State :=
  if readOnlySel sel.toNat then s else s.result 1 phSets slS 0 (.special sel.toNat op v)

def execSetsReg (g : Guard) (sel : BitVec 12) (r : BitVec 5) (s : State) : Out3 :=
  s.slot g (chkSel (.setsReg g sel r) sel s) (fun s => s.setsResult sel .put (s.cc.sreg r.toNat))
def execSetsImm (g : Guard) (sel : BitVec 12) (imm : W32) (s : State) : Out3 :=
  s.slot g (chkSel (.setsImm g sel imm) sel s) (fun s => s.setsResult sel .put (imm.signExtend 64))
def execSetsOr (g : Guard) (sel : BitVec 12) (imm : W32) (s : State) : Out3 :=
  s.slot g (chkSel (.setsOr g sel imm) sel s) (fun s => s.setsResult sel .or (imm.signExtend 64))
def execSetsClr (g : Guard) (sel : BitVec 12) (imm : W32) (s : State) : Out3 :=
  s.slot g (chkSel (.setsClr g sel imm) sel s) (fun s => s.setsResult sel .clr (imm.signExtend 64))

end Sys2Proof.Machine
end

