-- ==== Sys2Proof/Machine/Address.lean ====
section
/-! DEFINITION. The G slot: address registers, their configurations, LIDX and PF (R402 to R407). -/

namespace Sys2Proof.Machine

open Sys2Proof

/-- Write an address register at latency 1 (R404). -/
def State.addrResult (s : State) (d : BitVec 4) (v : W32) : State :=
  s.result 1 phLand slG 0 (.areg s.cc.set d.toNat v)

def execAaddReg (g : Guard) (d a : BitVec 4) (r : BitVec 5) (s : State) : Out3 :=
  s.slot g none (fun s => s.addrResult d (s.cc.areg a.toNat + (s.cc.sreg r.toNat).setWidth 32))
def execAaddImm (g : Guard) (d a : BitVec 4) (imm : BitVec 30) (s : State) : Out3 :=
  s.slot g none (fun s => s.addrResult d (s.cc.areg a.toNat + imm.signExtend 32))
def execAli (g : Guard) (d : BitVec 4) (imm : W32) (s : State) : Out3 :=
  s.slot g none (fun s => s.addrResult d imm)
def execAmovToA (g : Guard) (a : BitVec 4) (r : BitVec 5) (s : State) : Out3 :=
  s.slot g none (fun s => s.addrResult a ((s.cc.sreg r.toNat).setWidth 32))
def execAmovToS (g : Guard) (r : BitVec 5) (a : BitVec 4) (s : State) : Out3 :=
  s.slot g none (fun s => s.scalarResult 1 slG r ((s.cc.areg a.toNat).setWidth 64))

/-- Write an address register's configuration at latency 1 (R405). -/
def State.acfgResult (s : State) (a : BitVec 4) (c : ACfg) : State :=
  s.result 1 phLand slG 0 (.acfg s.cc.set a.toNat c)

def execAcfgLin (g : Guard) (a : BitVec 4) (inc : Half) (s : State) : Out3 :=
  s.slot g none (fun s => s.acfgResult a { s.cc.acfg a.toNat with mode := 0, inc := inc })

def chkAcfgMod (g : Guard) (r : BitVec 5) (s : State) : Option Trap :=
  if s.cc.guard g && (s.cc.sreg r.toNat).toNat / 2 ^ 32 == 0 then some (illegal5 slG) else none

def execAcfgMod (g : Guard) (a : BitVec 4) (r : BitVec 5) (inc : Half) (s : State) : Out3 :=
  s.slot g (chkAcfgMod g r s) (fun s =>
    let v := (s.cc.sreg r.toNat).toNat
    s.acfgResult a { s.cc.acfg a.toNat with
      mode := 1, inc := inc, base := .ofNat 32 v, len := .ofNat 32 (v / 2 ^ 32) })

def chkAcfgBrev (g : Guard) (r : BitVec 5) (s : State) : Option Trap :=
  let v := (s.cc.sreg r.toNat).toNat
  if s.cc.guard g && (fld v 0 5 == 0 || decide (32 < fld v 0 5 + fld v 5 2)) then some (illegal5 slG) else none

def execAcfgBrev (g : Guard) (a : BitVec 4) (r : BitVec 5) (inc : Half) (s : State) : Out3 :=
  s.slot g (chkAcfgBrev g r s) (fun s =>
    let v := (s.cc.sreg r.toNat).toNat
    s.acfgResult a { s.cc.acfg a.toNat with
      mode := 2, inc := inc, w := fld v 0 5, zs := fld v 5 2, base := .ofNat 32 (v / 2 ^ 32) })

/-- LIDX (R406): the checks of R202, then ILLEGAL 0x05 for a type that is no index, mask or integer. -/
def chkLidx (g : Guard) (t : BitVec 6) (s : State) : Option Trap :=
  let ty := vType (s.cc.vreg t.toNat)
  orTrap (s.viewCheck slG t.toNat)
    (if s.cc.guard g && (ty == 0 || ty == 1 || ty == 8 || ty == 9) then some (illegal5 slG) else none)

def lidxOf (q : TileCopy) (k : Nat) : W32 :=
  let ty := vType q.view
  if !vActive q.view (k / 64) (k % 64) then 0
  else if ty = 5 || ty = 6 || ty = 7 then .ofNat 32 (q.elem (k / 64) (k % 64))
  else .ofInt 32 (asSigned (typeBits ty) (q.elem (k / 64) (k % 64)))

def execLidx (g : Guard) (a : BitVec 4) (t : BitVec 6) (r : BitVec 5) (s : State) : Out3 :=
  s.slot g (chkLidx g t s) (fun s =>
    s.addrResult a (lidxOf (readTile s.cc s.ct (s.cc.vreg t.toNat)) ((s.cc.sreg r.toNat).toNat % 1024)))

/-- Any queue or hold operand in system mode, or in a delegated handler while its record is open, is ILLEGAL 0x07 (R332). -/
def State.queueBarred (s : State) : Bool := s.cc.sys || (s.cc.rec0 && s.cc.deleg)

def chkPf (t : BitVec 6) (s : State) : Option Trap :=
  let v := s.cc.vreg t.toNat
  orTrap (s.viewShape slG v (footprint (vType v)))
    (firstTrap [(vType v == 8, illegal5 slG), (s.queueBarred, ⟨1, 7, slG, 0, 0⟩)])

/-- PF (R191, R407): samples the view and its bytes at issue; a false guard fills all the same (R188). -/
def State.prefetch (s : State) (q : BitVec 3) (t : BitVec 6) : State :=
  s.result 6 phLand slG 0 (.queue q.toNat (readTile s.cc s.ct (s.cc.vreg t.toNat)))

def execPf (g : Guard) (q : BitVec 3) (t : BitVec 6) (s : State) : Out3 :=
  s.slot g (chkPf t s) (fun s => s.prefetch q t) (fun s => s.prefetch q t)

end Sys2Proof.Machine
end

