-- ==== Sys2Proof/Machine/Col.lean ====
section
/-! DEFINITION. Power admission (R23 to R31, R490): standing passes, grants, the charges of heavy work, and PASS (R389 to
R391). -/

namespace Sys2Proof.Machine

open Sys2Proof

/-- The budget in force for new grants and standing decisions (R19, R31). -/
def Col.force (c : Col) : Nat := if c.halved then c.budget / 2 else c.budget

def Col.standingTotal (c : Col) : Nat := sumNat (c.standing.map (·.2))

def Grant.covers (g : Grant) (w : Nat) : Bool := decide (g.first ≤ w) && decide (w ≤ g.last)

/-- Units granted for a window. -/
def Col.granted (c : Col) (w : Nat) : Nat := sumNat ((c.grants.filter (·.covers w)).map (·.units))

def Grant.left (g : Grant) (w : Nat) : Nat :=
  g.units - ((g.used.find? (fun p => p.1 == w)).map (·.2)).getD 0

def Grant.use (g : Grant) (w n : Nat) : Grant :=
  { g with used := (w, (g.units - g.left w) + n) :: g.used.filter (fun p => p.1 != w) }

/-- A grant that a command evaluated at device cycle `now` may draw on (R30, R391). -/
def Grant.serves (g : Grant) (now f cls w : Nat) : Bool :=
  g.field == f && g.cls == cls && g.covers w && decide (g.from_ ≤ now)

/-- Draw `n` units of window `w` from the grants in the order they were given (R30). -/
def takeUnits (now f cls w : Nat) : List Grant → Nat → List Grant
  | [], _ => []
  | g :: gs, n =>
    if g.serves now f cls w then
      g.use w (min n (g.left w)) :: takeUnits now f cls w gs (n - g.left w)
    else g :: takeUnits now f cls w gs n

/-- Charge a window: the Col after it, or the sub-cause of POWER (R30, R321). -/
def Col.charge (c : Col) (now f cls w n : Nat) : Except Nat Col :=
  if n = 0 then .ok c
  else
    let gs := c.grants.filter (·.serves now f cls w)
    if gs.isEmpty then .error 1
    else if sumNat (gs.map (·.left w)) < n then .error 2
    else .ok { c with grants := takeUnits now f cls w c.grants n }

/-- Charge windows in turn: the Col after all, or the first that fails with its sub-cause. -/
def Col.chargeAll (now f cls : Nat) : List (Nat × Nat) → Col → Except (Nat × Nat) Col
  | [], c => .ok c
  | (w, n) :: r, c =>
    match c.charge now f cls w n with
    | .ok c => Col.chargeAll now f cls r c
    | .error sub => .error (sub, w)

def power (slot sub w cls : Nat) : Trap := ⟨8, sub, slot, w, cls⟩

/-- The windows that hold cycles g to g + n − 1. -/
def windowsOf (g n : Nat) : List Nat :=
  if n = 0 then [] else (List.range (windowOf (g + n - 1) - windowOf g + 1)).map (· + windowOf g)

/-- How many of the cycles g to g + n − 1 lie in window w. -/
def cyclesIn (g n w : Nat) : Nat := min (g + n) (2000 * (w + 1)) - max g (2000 * w)

/-- ⌈3 × excess / 1,000⌉ for a tile's array busy cycles in one window (R26). -/
def costA (busy : Nat) : Nat := (3 * (busy - 1000) + 999) / 1000

/-- The class-A charges of n array busy cycles from global cycle g on a tile (R30). -/
def Tile.chargesA (t : Tile) (g n : Nat) : List (Nat × Nat) :=
  (windowsOf g n).map (fun w => (w, costA (t.busy.rd 0 w + cyclesIn g n w) - costA (t.busy.rd 0 w)))

def Tile.addBusy (t : Tile) (g n : Nat) : Tile :=
  { t with busy := (windowsOf g n).foldl (fun b w => b.wr 0 w (b.rd 0 w + cyclesIn g n w)) t.busy }

/-- The POWER trap of charges of a class, if any. -/
def State.powerTrap (s : State) (slot f cls : Nat) (ch : List (Nat × Nat)) : Option Trap :=
  match Col.chargeAll s.now f cls ch s.col with
  | .ok _ => none
  | .error (sub, w) => some (power slot sub w cls)

def State.payPower (s : State) (f cls : Nat) (ch : List (Nat × Nat)) : State :=
  match Col.chargeAll s.now f cls ch s.col with
  | .ok c => { s with col := c }
  | .error _ => s

/-! ## Requests (R27, R28, R389 to R391) -/

/-- Whether every window of a request has room (R28). -/
def Col.room (c : Col) (first count units : Nat) : Bool :=
  (List.range count).all (fun k => decide (c.standingTotal + c.granted (first + k) + units ≤ c.force))

/-- The field holds four live grants of the class. -/
def Col.full (c : Col) (w f cls : Nat) : Bool :=
  decide (4 ≤ (c.grants.filter (fun g => g.field == f && g.cls == cls && decide (w ≤ g.last))).length)

/-- The global cycle of tcyc `t` of the issuing field, as the Col maps it now (R23); none before the time base's cycle 0. -/
def State.globalOf (s : State) (t : Int) : Nat := ((s.global : Int) + (t - (s.ctcyc : Int))).toNat

/-- Scorebook counters grow in their shadows and saturate (R38, R39). -/
def Scorebook.bump (b : Scorebook) (i n : Nat) : Scorebook :=
  let x := (b.shadow.rd 0 i).toNat + n
  { b with shadow := b.shadow.wr 0 i (.ofNat 64 (min x (2 ^ 64 - 1))) }

def State.bump (s : State) (i n : Nat) : State := { s with sb := s.sb.bump i n }

/-- The answer word of R391; NOROOM alone when both denials apply. -/
def passWord (noroom noslot : Bool) (w : Nat) : W64 :=
  .ofNat 64 (b2n (!noroom && !noslot) + 2 * b2n noroom + 4 * b2n (noslot && !noroom) + 2 ^ 32 * (w % 2 ^ 32))

/-- PASS: the Col decides at issue; a grant is in force from issue + 40, and the answer lands then (R391), by device cycles while the
field stands still. -/
def State.pass (s : State) (d : BitVec 5) (req : W32) (start : Int) : State :=
  let cls := fld req.toNat 0 2
  let units := fld req.toNat 2 12
  let count := fld req.toNat 14 6 + 1
  let first := windowOf (s.globalOf start)
  let noroom := !s.col.room first count units
  let noslot := s.col.full (windowOf s.global) s.cf cls
  let s :=
    if noroom || noslot then
      { s with col := { s.col with deny := true, denials := s.col.denials + 1 } }.bump 0x060 1
    else
      let g : Grant := ⟨cls, s.cf, units, first, first + count - 1, [], s.now + 40⟩
      { s with col := { s.col with grants := s.col.grants ++ [g] } }
  let r : Result := ⟨s.nextId, s.now + 40, s.nextId, slS, 0, .sreg (s.cc.sSet d.toNat) d.toNat (passWord noroom noslot first)⟩
  (s.modCC (fun c => { c with inflight := c.inflight ++ [r] })).at s.eclk (s.enow + 40) phLand
    (.passAnswer (.ofNat 8 s.cur.tile) (.ofNat 2 s.cur.hw) r.id)

def execPass (g : Guard) (d : BitVec 5) (req : W32) (s : State) : Out3 :=
  s.slot g (Instr.rangeTrap (.pass g d req) slS) (fun s => s.pass d req (s.ctcyc : Int))

def execPassCycleReg (g : Guard) (d : BitVec 5) (req : W32) (r : BitVec 5) (s : State) : Out3 :=
  s.slot g (Instr.rangeTrap (.passCycleReg g d req r) slS)
    (fun s => s.pass d req (startCycle s.ctcyc ((s.cc.sreg r.toNat).toNat % 2 ^ 20)))

/-- Land the result of an id in a context, if it is still in flight. -/
def State.landId (s : State) (t h id : Nat) : State :=
  match (s.ctx t h).inflight.find? (fun r => r.id == id) with
  | some r => s.land t h r
  | none => s

/-- PASS_ANSWER (R391). -/
def execPassAnswer (tile : BitVec 8) (hw : BitVec 2) (id : Nat) (s : State) : Out3 :=
  .next (s.landId tile.toNat hw.toNat id)

/-- RESULT_LANDING (R186, R221): an issued result is written at issue plus its latency, with its flags. -/
def execResultLanding (tile : BitVec 8) (hw : BitVec 2) (id : Nat) (s : State) : Out3 :=
  .next (s.landId tile.toNat hw.toNat id)

/-! ## The registers and windows of the Col (R32, R490) -/

/-- COL_BUDGET: above 2,400 is stored as 2,400; the scheduler decides anew (R143). -/
def execColBudgetWrite (v : W32) (s : State) : Out3 :=
  .next (if s.bar0Writes then { s with col := { s.col with budget := min 2400 (v.toNat % 4096) }, decide_ := true } else s)

/-- Every grant of a field ends at completion or eviction (R29). -/
def State.lapse (s : State) (f : Nat) : State :=
  let w := windowOf s.global
  { s with col := { s.col with
      grants := s.col.grants.filterMap (fun g =>
        if g.field == f && decide (w ≤ g.last) then
          (if g.first < w then some { g with last := w - 1 } else none)
        else some g) } }

end Sys2Proof.Machine
end

