-- ==== Sys2Proof/Machine/Engines.lean ====
section
/-! DEFINITION. What the engine commands share: start cycles, the bounds of R208, the mesh slots of R448, and the report of a
TIMING conflict (R207, R321). -/

namespace Sys2Proof.Machine

open Sys2Proof

/-- The start cycle of a command that issues now. -/
def State.estart (s : State) (tm : Timing) : Int := if s.cfrozen then (s.now : Int) else s.startOf tm

/-- The global cycle of a start cycle, as the Col maps it at issue (R23). -/
def State.globalAt (s : State) (t : Int) : Nat := ((s.global : Int) + (t - (s.enow : Int))).toNat

/-- A start field other than `cycle=now` in system mode during a freeze is ILLEGAL 0x07 (R332). -/
def State.startTrap (s : State) (slot : Nat) (tm : Timing) : Option Trap :=
  if s.cc.sys && s.cfrozen && tm != .now then some ⟨1, 7, slot, 0, 0⟩ else none

/-- The present cycle in an accepted command's own clock. -/
def State.cmdNow (s : State) (t : Nat) (c : ECmd) : Nat :=
  if c.dclk then s.now else s.tcycOf (s.ctx t c.hw).fieldNum

/-- The clock of an accepted command. -/
def State.cmdClk (s : State) (t : Nat) (c : ECmd) : Option Nat :=
  if c.dclk then none else some (s.ctx t c.hw).fieldNum

/-- The accepted commands that a command issuing now is checked against: those of its member and of its clock (R255, R332). -/
def State.peers (s : State) (cs : List ECmd) : List ECmd :=
  cs.filter (fun c => c.dclk == s.cfrozen && (!s.cgrouped || c.hw / 2 == s.cmember))

/-- TIMING that names one of the commands in conflict, given by their PCs (R321, log entry 11). -/
def State.conflict (s : State) (slot sub : Nat) (t : Int) (pcs : List Nat) : Option Trap :=
  (pcs[Config.concerned s.now % pcs.length]?).map (fun pc => timing slot sub t (some pc))

def pcsOf (cs : List ECmd) : List Nat := cs.map (·.pc)

/-- The bounds of R208: eight commands whose start has not passed, sixteen that have not reached their last fixed cycle. -/
def State.engineFull (s : State) (cs : List ECmd) : Bool :=
  let cs := cs.filter (fun c => c.dclk || !s.cfrozen)
  decide (8 ≤ (cs.filter (fun c => decide (s.cmdNow s.cur.tile c ≤ c.t))).length)
    || decide (16 ≤ (cs.filter (fun c => decide (s.cmdNow s.cur.tile c < c.last))).length)

def lateTrap (slot : Nat) (t : Int) (now : Nat) : Option Trap := if t < (now : Int) then some (timing slot 1 t none) else none

def boundTrap (s : State) (slot : Nat) (t : Int) (cs : List ECmd) : Option Trap :=
  if s.engineFull cs then some (timing slot 3 t none) else none

/-- A new command of the issuing context. -/
def State.newCmd (s : State) (i : Instr) (t last : Nat) : ECmd where
  id := s.nextId
  seq := s.nextId
  hw := s.cur.hw
  pc := s.cur.pc
  ins := i
  issue := s.enow
  t := t
  last := last
  vals := []
  views := []
  bound := []
  sys := s.cc.sys
  dclk := s.cfrozen
  started := false
  stopped := false
  prog := 0
  masks := []
  data := []
  sums := []
  status := 0
  fwd := none
  cells := []
  dst := []
  ready := 0
  slots := []
  expand := 0
  sysw := s.cc.sysw
  plans := []
  set := s.cc.set

/-- Two half-open intervals [a, a + m) and [b, b + n) meet. -/
def meets (a m b n : Nat) : Bool := decide (a < b + n) && decide (b < a + m)

/-! ## Operands that another engine is still writing (R207) -/

/-- The linear 16-byte line behind line l of a view of the scratchpad. -/
def lineOf (swz : Bool) (l : Nat) : Nat := if swz then swizzledLine l else l

def Region.meet : Region → Region → Bool
  | .reg h a m, .reg h' b n => h == h' && meets a m b n
  | .lines sw a m, .lines sw' b n =>
    if sw == sw' then meets a m b n
    else (List.range m).any (fun k => (List.range n).any (fun j => lineOf sw (a + k) == lineOf sw' (b + j)))
  | _, _ => false

/-- Accepted commands of the mesh and link engines that are still writing what a command reads at T (R207). -/
def State.stillWriting (s : State) (t : Nat) (src : List Region) : List ECmd :=
  (s.peers (s.ct.mesh ++ s.ct.link)).filter
    (fun c => decide (t < c.ready) && src.any (fun r => c.dst.any r.meet))

/-! ## Mesh slots (R448, R472) -/

def MeshSlot.meet (a b : MeshSlot) : Bool := a.out == b.out && a.port == b.port && meets a.start a.n b.start b.n

/-- Accepted commands whose mesh slots meet these. -/
def State.meshHolders (s : State) (l : List MeshSlot) : List ECmd :=
  (s.peers (s.ct.arr ++ s.ct.mesh)).filter (fun c => c.slots.any (fun x => l.any (·.meet x)))

def portTrap (slot port : Nat) : Trap := ⟨2, 3, slot, 0x10 + port, 0⟩

/-- A port whose neighbour is no tile of the field (R446, R471). -/
def State.meshTrap (s : State) (slot port : Nat) : Option Trap :=
  if (s.fieldNeighbour port).isSome then none else some (portTrap slot port)

/-! ## Reading the scratchpad (R269 to R272) -/

/-- The physical 16-byte line behind line l of a member in one of its views. -/
def spLine (member : Nat) (swz : Bool) (l : Nat) : Nat := spPhys member (16 * lineOf swz l) / 16

/-- What a read of a line may still return besides the present bytes: the line before writes through the other view that
no VJOIN separates from this read (R272).  `same` when the reading command issued in this cycle: a VJOIN of its own bundle
orders it (R479). -/
def Tile.staleLines (t : Tile) (now member : Nat) (swz same : Bool) (pl : Nat) : List (List Byte) :=
  let j := t.joinAt.rd 0 member
  (t.unjoined.filter (fun u => u.line == pl && u.swz != swz
    && !(decide (u.land < j) && (decide (j < now) || (same && j == now))))).map (fun u => (List.range 16).map (fun k => u.old.getD k 0))

/-- Sample lines, one after the other; where R272 leaves a line old or new, a draw decides (log entry 1). -/
def State.spSample (s : State) (t member : Nat) (swz same : Bool) : List Nat → List Byte × State
  | [] => ([], s)
  | l :: ls =>
    let pl := spLine member swz l
    let here := (s.tile t).scratch.bytes (16 * pl) 16
    let (x, s) :=
      match (s.tile t).staleLines s.now member swz same pl with
      | [] => (here, s)
      | olds => let (k, s) := s.drawFree; (((here :: olds)[k % (olds.length + 1)]?).getD here, s)
    let (xs, s) := State.spSample s t member swz same ls
    (x ++ xs, s)

/-- The n lines from l on. -/
def linesFrom (l n : Nat) : List Nat := (List.range n).map (· + l)

/-- The bytes of a member's scratchpad at some offsets as a read of the linear view samples them. -/
def State.spRead (s : State) (t member : Nat) (same : Bool) (addrs : List Nat) : Mem × State :=
  let ls := distinct (addrs.map (· / 16))
  let (bs, s) := s.spSample t member false same ls
  (Mem.setCells [] ((numbered 0 bs).map (fun p => (16 * ((ls[p.1 / 16]?).getD 0) + p.1 % 16, p.2))), s)

/-- The cells that write bytes to consecutive lines of a view. -/
def lineCells (member : Nat) (swz : Bool) (l : Nat) (bs : List Byte) : List Host.Cell :=
  (numbered 0 bs).map (fun p => (16 * spLine member swz (l + p.1 / 16) + p.1 % 16, p.2))

/-! ## Package numbers (R53) -/

def State.extent (s : State) (k : Nat) : Nat := fld s.torus.dims.toNat (5 * k) 5 + 1
def State.coordOf (s : State) (k : Nat) : Nat := fld s.torus.coord.toNat (5 * k) 5

/-- This package's number (R53). -/
def State.pkgNum (s : State) : Nat := s.coordOf 0 + s.extent 0 * (s.coordOf 1 + s.extent 1 * s.coordOf 2)

/-- Find a command of a tile's list by id. -/
def findE (cs : List ECmd) (id : Nat) : Option ECmd := cs.find? (fun c => c.id == id)
def putE (cs : List ECmd) (c : ECmd) : List ECmd := updFirst (fun x => x.id == c.id) (fun _ => c) cs
def dropE (cs : List ECmd) (id : Nat) : List ECmd := cs.filter (fun c => c.id != id)

/-! ## Asynchronous commands (R355, R363) -/

/-- A new asynchronous command of the issuing context. -/
def State.newAsync (s : State) (i : Instr) (ev : Option Nat) : Cmd where
  id := s.nextId
  seq := s.nextId
  tile := s.cur.tile
  hw := s.cur.hw
  field := s.cf
  rel := s.relOf s.cur.tile s.cur.hw
  pc := s.cur.pc
  ins := i
  sys := s.cc.sys
  svc := s.cc.sys && s.cc.inService
  set := s.cc.set
  ev := ev
  addr := 0
  pitch := 0
  vals := []
  views := []
  bytes := []
  cells := []
  sysw := s.cc.sysw
  scope := none
  xl := []
  made := false
  flags := []
  wait := []
  fset := []
  maps := []
  prog := 0
  status := 0
  lowest := none
  viol := none

/-- Something whose time the spec leaves open happens a free number of cycles after `wait` (log entry 1), among the
results of that cycle in the issue order of the command (R459). -/
def State.later (s : State) (seq wait : Nat) (ev : Instr) : State :=
  let (k, s) := s.drawFree
  s.atSeq none (s.now + wait + k) phLand seq ev

def State.cmd (s : State) (id : Nat) : Option Cmd := s.cmds.find? (fun c => c.id == id)
def State.putCmd (s : State) (c : Cmd) : State := { s with cmds := updFirst (fun x => x.id == c.id) (fun _ => c) s.cmds }
def State.dropCmd (s : State) (id : Nat) : State := { s with cmds := s.cmds.filter (fun c => c.id != id) }

/-- Update the context that issued a command, and its tile: where the field's place is now, or, for a command of a service, the
context that serves. -/
def State.modCmdPlace (s : State) (c : Cmd) (g : Ctx → Tile → Ctx × Tile) : State :=
  if c.svc then
    let (x, t) := g (s.ctx c.tile c.hw) (s.tile c.tile)
    (s.setCtx c.tile c.hw x).setTile c.tile t
  else s.modPlace c.field c.rel g

def State.modCmd (s : State) (c : Cmd) (g : Ctx → Ctx) : State := s.modCmdPlace c (fun x t => (g x, t))

/-- Accept an asynchronous command and let `ev` happen a free time after the next cycle. -/
def State.async (s : State) (c : Cmd) (ev : Nat → Instr) : State :=
  ({ s with cmds := s.cmds ++ [c], nextId := s.nextId + 1 }).later c.seq 1 (ev c.id)

/-- The command is complete: it counts its event, if it names one, and is gone (R363). -/
def State.complete (s : State) (c : Cmd) : State :=
  let s := s.dropCmd c.id
  match c.ev with
  | some e => s.modCmd c (fun x => x.count e 1)
  | none => s

/-- Write one 16-byte unit of what a command has still to write, chosen freely (R443, R452): `clash` says which cells an
earlier command must write first.  `put` writes cells.  When nothing is left the command is complete; otherwise `again`
happens a free time later. -/
def State.progress (s : State) (c : Cmd) (clash : MaskedByte → Bool) (put : State → List MaskedByte → State) (again : Instr) :
    State :=
  let units := distinct (c.cells.map (fun x => x.addr / 16))
  let (k, s) := s.drawFree
  match units[k % units.length]? with
  | none => s.complete c
  | some u =>
    let mine := c.cells.filter (fun x => x.addr / 16 == u)
    if mine.any clash then s.later c.seq 1 again
    else
      let rest := c.cells.filter (fun x => x.addr / 16 != u)
      let s := put s mine
      if rest.isEmpty then s.complete c else (s.putCmd { c with cells := rest }).later c.seq 0 again

/-! ## What a copy moves (R468) -/

/-- Spaces of CPY: 0 global, 1 scratchpad, 2 weight die, 3 staging. -/
structure CopyShape where
  src : Nat
  dst : Nat
  n0  : Nat
  n1  : Nat
  n2  : Nat
  ss1 : Nat
  ss2 : Nat
  ds1 : Nat
  ds2 : Nat

def CopyShape.total (c : CopyShape) : Nat := c.n0 * c.n1 * c.n2

/-- The source and destination addresses of byte p of the copy, in lexicographic order. -/
def CopyShape.at (c : CopyShape) (p : Nat) : Nat × Nat :=
  let i0 := p % c.n0
  let i1 := p / c.n0 % c.n1
  let i2 := p / c.n0 / c.n1
  ((c.src + i2 * c.ss2 + i1 * c.ss1 + i0) % 2 ^ 64, (c.dst + i2 * c.ds2 + i1 * c.ds1 + i0) % 2 ^ 64)

/-- The copy still writes a byte of its destination in [lo, lo + n) from its byte p on. -/
def CopyShape.writesFrom (c : CopyShape) (p lo n : Nat) : Bool :=
  (List.range (c.n1 * c.n2)).any (fun r =>
    let skip := p - r * c.n0
    decide (skip < c.n0) && meets ((c.at (r * c.n0)).2 + skip) (c.n0 - skip) lo n)

def Cmd.val (c : Cmd) (k : Nat) : Nat := ((c.vals[k]?).getD 0).toNat

def Cmd.shape (c : Cmd) : CopyShape :=
  ⟨c.val 0, c.val 1, c.val 2, c.val 3, c.val 4, c.val 5, c.val 6, c.val 7, c.val 8⟩

end Sys2Proof.Machine
end

