-- ==== Sys2Proof/Machine/Flags.lean ====
section
/-! DEFINITION. aflags (R219, R221) and the two's-complement tests behind the integer flags. -/

namespace Sys2Proof.Machine

/-- Flags as bits of aflags: NV [0], DZ [1], OF [2], UF [3], NX [4], SAT [5], RANGE [6] (R219). -/
def flNV : BitVec 7 := 1
def flDZ : BitVec 7 := 2
def flOF : BitVec 7 := 4
def flUF : BitVec 7 := 8
def flNX : BitVec 7 := 16
def flSAT : BitVec 7 := 32
def flRANGE : BitVec 7 := 64

def flagIf (b : Bool) (f : BitVec 7) : BitVec 7 := if b then f else 0

/-- The flags of many elements: each ORed in (R221). -/
def orAll (l : List (BitVec 7)) : BitVec 7 := l.foldl (· ||| ·) 0

/-- x lies in the signed range of w bits. -/
def fitsSigned (w : Nat) (x : Int) : Bool := decide (-(2 ^ (w - 1) : Int) ≤ x) && decide (x < (2 ^ (w - 1) : Int))

end Sys2Proof.Machine
end

