-- ==== Sys2Proof/Machine/Float.lean ====
section
/-! DEFINITION. Floating-point values, the one rounding of R216 and R358, and the correctly rounded functions of R222. -/

namespace Sys2Proof.Machine

open Sys2Proof

/-- A value before rounding: (−1)^neg × m × 2^e, or with `st` set, strictly between that and (−1)^neg × (m + 1) × 2^e. -/
inductive Fv where
  | nan
  | inf (neg : Bool)
  | num (neg : Bool) (m : Nat) (e : Int) (st : Bool)
deriving DecidableEq, Repr

def Fv.zero (neg : Bool) : Fv := .num neg 0 0 false
def Fv.ofInt (n : Int) : Fv := .num (decide (n < 0)) n.natAbs 0 false
def Fv.one : Fv := .num false 1 0 false

/-- A binary format: precision p, least exponent emin, width of the exponent field (R214, R358). -/
structure Fmt where
  p    : Nat
  emin : Int
  ew   : Nat
deriving DecidableEq, Repr

def fp32 : Fmt := ⟨24, -126, 8⟩
def bf16 : Fmt := ⟨8, -126, 8⟩
def fp16 : Fmt := ⟨11, -14, 5⟩

def Fmt.width (f : Fmt) : Nat := f.p + f.ew
def Fmt.infBits (f : Fmt) : Nat := (2 ^ f.ew - 1) * 2 ^ (f.p - 1)
def Fmt.nanBits (f : Fmt) : Nat := f.infBits + 2 ^ (f.p - 2)
def Fmt.maxBits (f : Fmt) : Nat := f.infBits - 1
def Fmt.signBit (f : Fmt) (neg : Bool) : Nat := if neg then 2 ^ (f.width - 1) else 0

/-- The value of a bit pattern (R214, R215). -/
def Fmt.value (f : Fmt) (bits : Nat) : Fv :=
  let neg := bitAt bits (f.width - 1)
  let ex := fld bits (f.p - 1) f.ew
  let fr := fld bits 0 (f.p - 1)
  if ex = 2 ^ f.ew - 1 then (if fr = 0 then .inf neg else .nan)
  else if ex = 0 then .num neg fr (f.emin - (f.p - 1 : Nat)) false
  else .num neg (2 ^ (f.p - 1) + fr) (f.emin - (f.p - 1 : Nat) + (ex - 1 : Nat)) false

/-- m × 2^−sh rounded to the nearest integer, ties to even, with a sticky rest; and whether that was inexact. -/
def roundShift (m : Nat) (st : Bool) (sh : Nat) : Nat × Bool :=
  let n := m / 2 ^ sh
  let rem := m % 2 ^ sh
  let half := 2 ^ (sh - 1)
  if sh = 0 then (n, st)
  else
    let up := decide (half < rem) || (rem == half && (st || n % 2 == 1))
    (if up then n + 1 else n, rem != 0 || st)

/-- The multiple of 2^q nearest m × 2^e (with sticky rest), as a count of 2^q, and whether it differs. -/
def roundAt (m : Nat) (e : Int) (st : Bool) (q : Int) : Nat × Bool :=
  if q ≤ e then (m * 2 ^ (e - q).toNat, st) else roundShift m st (q - e).toNat

/-- rne and sat of R358 and R359: the bits and the flags. -/
def Fmt.round (f : Fmt) (sat : Bool) : Fv → Nat × BitVec 7
  | .nan => (f.nanBits, 0)
  | .inf neg => (f.signBit neg + f.infBits, 0)
  | .num neg m e st =>
    if m = 0 then (f.signBit neg, if st then flNX ||| flUF else 0) else
    let l : Int := e + (Nat.log2 m : Nat)
    let qmin := f.emin - (f.p - 1 : Nat)
    let q := max l f.emin - (f.p - 1 : Nat)
    let (n, nx) := roundAt m e st q
    let bits := (q - qmin).toNat * 2 ^ (f.p - 1) + n
    let (n1, _) := roundAt m e st (l - (f.p - 1 : Nat))
    let tiny := decide (l < f.emin) && !(l == f.emin - 1 && n1 == 2 ^ f.p)
    if f.infBits ≤ bits then
      (f.signBit neg + (if sat then f.maxBits else f.infBits), flOF ||| flNX)
    else (f.signBit neg + bits, flagIf nx flNX ||| flagIf (nx && tiny) flUF)

/-- Rounding to an integer, ties to even, then clamping (R217, R358): NV for a NaN, SAT for a clamp, NX for a finite value
that is no integer. -/
def roundInt (w : Nat) : Fv → Int × BitVec 7
  | .nan => (0, flNV)
  | .inf neg => (if neg then -(2 ^ (w - 1) : Int) else (2 ^ (w - 1) : Int) - 1, flSAT)
  | .num neg m e st =>
    let (n, nx) := roundAt m e st 0
    let y : Int := if neg then -(n : Int) else n
    let z := clampI (-(2 ^ (w - 1) : Int)) ((2 ^ (w - 1) : Int) - 1) y
    (z, flagIf nx flNX ||| flagIf (z != y) flSAT)

/-! ## Exact arithmetic (R215, R415) -/

def signed (neg : Bool) (m : Nat) : Int := if neg then -(m : Int) else m

/-- Exact sum; an exact zero is −0 only when both are −0. -/
def Fv.add : Fv → Fv → Fv × BitVec 7
  | .nan, _ => (.nan, 0)
  | _, .nan => (.nan, 0)
  | .inf a, .inf b => if a = b then (.inf a, 0) else (.nan, flNV)
  | .inf a, _ => (.inf a, 0)
  | _, .inf b => (.inf b, 0)
  | .num na ma ea _, .num nb mb eb _ =>
    if ma = 0 && mb = 0 then (Fv.zero (na && nb), 0) else
    let e := if ma = 0 then eb else if mb = 0 then ea else min ea eb
    let x := signed na (ma * 2 ^ (ea - e).toNat) + signed nb (mb * 2 ^ (eb - e).toNat)
    (.num (decide (x < 0)) x.natAbs (if x = 0 then 0 else e) false, 0)

def Fv.neg : Fv → Fv
  | .nan => .nan
  | .inf n => .inf (!n)
  | .num n m e st => .num (!n) m e st

def Fv.sub (a b : Fv) : Fv × BitVec 7 := a.add b.neg

def Fv.mul : Fv → Fv → Fv × BitVec 7
  | .nan, _ => (.nan, 0)
  | _, .nan => (.nan, 0)
  | .inf a, .inf b => (.inf (a != b), 0)
  | .inf a, .num b m _ _ => if m = 0 then (.nan, flNV) else (.inf (a != b), 0)
  | .num a m _ _, .inf b => if m = 0 then (.nan, flNV) else (.inf (a != b), 0)
  | .num na ma ea _, .num nb mb eb _ => (.num (na != nb) (ma * mb) (ea + eb) false, 0)

/-- a × b + c, rounded once by the caller; 0 × ∞ sets NV even when c is a NaN. -/
def Fv.fma (a b c : Fv) : Fv × BitVec 7 :=
  let (p, f) := a.mul b
  let (r, g) := p.add c
  (r, f ||| g)

def Fv.isNan (x : Fv) : Bool := x == .nan

/-- Compare two values that are no NaN: less, equal or greater; −0 equals +0. -/
def Fv.cmp : Fv → Fv → Ordering
  | .inf a, .inf b => if a = b then .eq else if a then .lt else .gt
  | .inf a, _ => if a then .lt else .gt
  | _, .inf b => if b then .gt else .lt
  | .num na ma ea _, .num nb mb eb _ =>
    let e := min ea eb
    compare (signed na (ma * 2 ^ (ea - e).toNat)) (signed nb (mb * 2 ^ (eb - e).toNat))
  | _, _ => .eq

def Fv.isNeg : Fv → Bool
  | .inf n => n
  | .num n _ _ _ => n
  | .nan => false

/-- The smaller (or larger) of two, −0 below +0; a NaN if either is (R416). -/
def Fv.pick (larger : Bool) (a b : Fv) : Fv :=
  if a.isNan || b.isNan then .nan else
  let aLess := a.cmp b == .lt || (a.cmp b == .eq && a.isNeg && !b.isNeg)
  if aLess == larger then b else a

/-! ## Correctly rounded functions (R222, R223) -/

/-- ⌊√n⌋ by bits, from bit `k` − 1 down, starting at `r`. -/
def isqrtAux (n : Nat) : Nat → Nat → Nat
  | 0, r => r
  | k + 1, r => let c := r + 2 ^ k; isqrtAux n k (if c * c ≤ n then c else r)

def isqrt (n : Nat) : Nat := isqrtAux n (Nat.log2 n / 2 + 1) 0

def Fv.div : Fv → Fv → Fv × BitVec 7
  | .nan, _ => (.nan, 0)
  | _, .nan => (.nan, 0)
  | .inf _, .inf _ => (.nan, flNV)
  | .inf a, .num b _ _ _ => (.inf (a != b), 0)
  | .num a _ _ _, .inf b => (Fv.zero (a != b), 0)
  | .num na ma ea _, .num nb mb eb _ =>
    if mb = 0 then (if ma = 0 then (.nan, flNV) else (.inf (na != nb), flDZ))
    else if ma = 0 then (Fv.zero (na != nb), 0)
    else
      let k := 64 + Nat.log2 mb
      (.num (na != nb) (ma * 2 ^ k / mb) (ea - eb - (k : Nat)) (ma * 2 ^ k % mb != 0), 0)

/-- m × 2^e with an even exponent, m scaled to at least 128 bits. -/
def evenScaled (m : Nat) (e : Int) : Nat × Int :=
  let k : Nat := 128 + ((e + 128) % 2).toNat
  (m * 2 ^ k, e - k)

def Fv.sqrt : Fv → Fv × BitVec 7
  | .nan => (.nan, 0)
  | .inf n => if n then (.nan, flNV) else (.inf false, 0)
  | .num n m e _ =>
    if m = 0 then (Fv.zero n, 0) else if n then (.nan, flNV) else
    let (m', e') := evenScaled m e
    let r := isqrt m'
    (.num false r (e' / 2) (r * r != m'), 0)

/-- 1/√x. -/
def Fv.rsq : Fv → Fv × BitVec 7
  | .nan => (.nan, 0)
  | .inf n => if n then (.nan, flNV) else (Fv.zero false, 0)
  | .num n m e _ =>
    if m = 0 then (.inf n, flDZ) else if n then (.nan, flNV) else
    let (m', e') := if e % 2 = 0 then (m, e) else (2 * m, e - 1)
    let k := 128 + Nat.log2 m'
    let y := 2 ^ (2 * k) / m'
    let r := isqrt y
    (.num false r (-(e' / 2) - (k : Nat)) (r * r * m' != 2 ^ (2 * k)), 0)

/-- Bits of fixed point in which 2^x is formed; each step loses less than 2^−320 (log entry 15). -/
def expBits : Nat := 320

/-- Multiply 2^(b/2^i) over the bits b of a fraction, from bit i = 1 down: `root` is 2^(1/2^(i−1)) in fixed point. -/
def exp2Frac (fr k : Nat) : Nat → Nat → Nat → Nat
  | 0, _, acc => acc
  | n + 1, root, acc =>
    let root := isqrt (root * 2 ^ expBits)
    exp2Frac fr k n root (if bitAt fr n then acc * root / 2 ^ expBits else acc)

/-- 2^x: exact for an integer x. -/
def Fv.exp2 : Fv → Fv × BitVec 7
  | .nan => (.nan, 0)
  | .inf n => if n then (Fv.zero false, 0) else (.inf false, 0)
  | .num n m e _ =>
    if m = 0 then (Fv.one, 0) else
    if 12 ≤ e + (Nat.log2 m : Nat) then (if n then .num false 1 (-5000) true else .num false 1 5000 false, 0) else
    let k := (-e).toNat
    let x : Int := signed n (m * 2 ^ e.toNat)
    let ip : Int := x / 2 ^ k
    let fr := (x % 2 ^ k).toNat
    if fr = 0 then (.num false 1 ip false, 0)
    else (.num false (exp2Frac fr k k (2 * 2 ^ expBits) (2 ^ expBits)) (ip - (expBits : Nat)) true, 0)

def logBits : Nat := 130
def logPrec : Nat := 420

/-- Bits of log2 f for 1 ≤ f < 2 in fixed point, most significant first, by repeated squaring. -/
def log2Frac : Nat → Nat → Nat → Nat
  | 0, _, acc => acc
  | n + 1, f, acc =>
    let q := f * f / 2 ^ logPrec
    if 2 ^ (logPrec + 1) ≤ q then log2Frac n (q / 2) (2 * acc + 1) else log2Frac n q (2 * acc)

/-- log2 x: exact for a power of two. -/
def Fv.log2 : Fv → Fv × BitVec 7
  | .nan => (.nan, 0)
  | .inf n => if n then (.nan, flNV) else (.inf false, 0)
  | .num n m e _ =>
    if m = 0 then (.inf true, flDZ) else if n then (.nan, flNV) else
    let k := Nat.log2 m
    let l : Int := e + (k : Nat)
    if m = 2 ^ k then (Fv.ofInt l, 0) else
    let fr := log2Frac logBits (m * 2 ^ (logPrec - k)) 0
    let v : Int := l * 2 ^ logBits + (fr : Nat)
    if 0 ≤ v then (.num false v.toNat (-(logBits : Nat) : Int) true, 0)
    else (.num true ((-v).toNat - 1) (-(logBits : Nat) : Int) true, 0)

/-! ## Formats by view type -/

def isF (ty : Nat) : Bool := ty == 0 || ty == 1 || ty == 9
def isI (ty : Nat) : Bool := ty == 2 || ty == 3 || ty == 4
def isIdx (ty : Nat) : Bool := ty == 5 || ty == 6

def fmtOf (ty : Nat) : Fmt := if ty = 1 then bf16 else if ty = 9 then fp16 else fp32

/-- Store a class-F result by R414: rounded once to the format that RF selects, then widened exactly. -/
def storeF (ty rf : Nat) (sat : Bool) (x : Fv) : Nat × BitVec 7 :=
  let f := if rf = 1 then bf16 else if rf = 2 then fp16 else fmtOf ty
  let (b, fl) := f.round sat x
  if f = fmtOf ty then (b, fl) else (((fmtOf ty).round false (f.value b)).1, fl)

/-- Store a class-I result by R414: wrapped, or clamped under SAT. -/
def storeI (w : Nat) (sat : Bool) (x : Int) : Nat × BitVec 7 :=
  if sat then
    let y := clampI (-(2 ^ (w - 1) : Int)) ((2 ^ (w - 1) : Int) - 1) x
    (wrap w y, flagIf (y != x) flSAT)
  else (wrap w x, 0)

end Sys2Proof.Machine
end

