-- ==== Sys2Proof/Machine/Codebook.lean ====
section
/-! DEFINITION. Codebook entries (R224 to R227), the fractional table, and the choice of a log term (R232 to R238). -/

namespace Sys2Proof.Machine

open Sys2Proof

/-- T[0..7] of R226. -/
def fracTable (f : Nat) : Nat :=
  match f with
  | 0 => 32768
  | 1 => 35734
  | 2 => 38968
  | 3 => 42495
  | 4 => 46341
  | 5 => 50535
  | 6 => 55109
  | _ => 60097

/-- A log term (R225), from bits [15:0] of its entry. -/
structure Term where
  valid : Bool
  zero  : Bool
  sign  : Bool
  e     : Int
deriving DecidableEq, Repr

def termOf (x : Nat) : Term := ⟨bitAt x 15, bitAt x 14, bitAt x 13, asSigned 8 x⟩

/-- The value of a valid, non-zero term under block offset b (R226). -/
def Term.value (t : Term) (b : Int) : Fv :=
  let x := t.e + b
  .num t.sign (fracTable (x % 8).toNat) (x / 8 - 15) false

/-- Entries 16t to 16t + 15 of a plane as terms. -/
def termsOf (pl : Table (BitVec 128)) (t : Nat) : List Term :=
  (List.range 16).map (fun i => termOf ((pl.rd 0 (16 * t + i)).toNat))

/-- The lowest-indexed valid zero entry. -/
def zeroIdx (ts : List Term) : Option Nat := ((numbered 0 ts).find? (fun p => p.2.valid && p.2.zero)).map (·.1)

def Term.nonzero (t : Term) : Bool := t.valid && !t.zero

/-- A term has a valid zero entry and a valid non-zero one (R235). -/
def termOk (ts : List Term) : Bool := (zeroIdx ts).isSome && ts.any Term.nonzero

/-- Compare |y| with 2^(n/16), for |y| = m × 2^k. -/
def cmpPow16 (m : Nat) (k n : Int) : Ordering :=
  let l := 16 * k - n
  if 0 ≤ l then compare (m ^ 16 * 2 ^ l.toNat) 1 else compare (m ^ 16) (2 ^ (-l).toNat)

/-- Of two candidates at effective exponents, whether `c` beats `best` for y = m × 2^k (R232): closer in
8 × log2 |y|, ties to the smaller. -/
def closer (m : Nat) (k c best : Int) : Bool :=
  if c = best then false
  else if c < best then cmpPow16 m k (c + best) != .gt
  else cmpPow16 m k (c + best) == .gt

/-- The index that nearest rounding chooses for a finite y (R232): `none` stands for the zero entry. -/
def nearest (ts : List Term) (b : Int) (neg : Bool) (m : Nat) (k : Int) : Option Nat :=
  ((numbered 0 ts).foldl
    (fun (best : Option (Nat × Int)) p =>
      if p.2.nonzero && p.2.sign == neg then
        match best with
        | none => some (p.1, p.2.e + b)
        | some (_, eb) => if closer m k (p.2.e + b) eb then some (p.1, p.2.e + b) else best
      else best) none).map (·.1)

/-- |value| of an effective exponent, scaled by 2^s. -/
def magAt (x s : Int) : Nat := fracTable (x % 8).toNat * 2 ^ (x / 8 - 15 + s).toNat

/-- What stochastic rounding finds (R236): an index fixed by nearest rounding, or the lower and upper index with the
threshold that a draw is compared with. -/
inductive Choice where
  | fixed (i : Option Nat)
  | draw (lo : Option Nat) (hi : Nat) (p : Nat)
deriving DecidableEq, Repr

/-- Choose under stochastic rounding, exactly, in units of 2^−s. -/
def stochastic (ts : List Term) (b : Int) (neg : Bool) (m : Nat) (k : Int) : Choice :=
  let s : Int := max 200 (-k)
  let y := m * 2 ^ (k + s).toNat
  let cands := (numbered 0 ts).filter (fun p => p.2.nonzero && p.2.sign == neg)
  let val (p : Nat × Term) : Nat := magAt (p.2.e + b) s
  let lo := cands.foldl (fun (best : Option (Nat × Nat)) p =>
    if val p ≤ y && (match best with
      | none => true
      | some (_, v) => decide (v < val p)) then some (p.1, val p) else best) none
  let hi := cands.foldl (fun (best : Option (Nat × Nat)) p =>
    if y ≤ val p && (match best with
      | none => true
      | some (_, v) => decide (val p < v)) then some (p.1, val p) else best) none
  match hi with
  | none => .fixed (nearest ts b neg m k)
  | some (ih, vh) =>
    let vl := match lo with
      | none => 0
      | some (_, v) => v
    if y = vh || (lo.isSome && y = vl) then .fixed (nearest ts b neg m k)
    else .draw (lo.map (·.1)) ih (65536 * (y - vl) / (vh - vl))

/-- One step of sround (R237): the new state, whose low 16 bits are the draw. -/
def lfsrStep (x : W32) : W32 := if x.getLsbD 0 then (x >>> 1) ^^^ 0x80200003 else x >>> 1

/-- The value in FP32 that a chosen index stands for; zero for the zero entry. -/
def chosenValue (ts : List Term) (b : Int) (i : Nat) : Fv :=
  match ts[i]? with
  | some t => if t.nonzero then t.value b else Fv.zero false
  | none => Fv.zero false

/-- The residual r := rne32(r − v) (R233). -/
def residual (r v : Fv) : Fv := fp32.value (fp32.round false (r.sub v).1).1

/-- ⌊16 × log2 |x|⌋ for x = m × 2^k, then the integer nearest 8 × log2 |x| (R238). -/
def nearestEighths (m : Nat) (k : Int) : Int :=
  let f : Int := (Nat.log2 (m ^ 16) : Nat) + 16 * k
  (f + 1) / 2

/-- Value expansion (R227, R360): component j of the entry at index n of a plane. -/
def valueEntry (pl : Table (BitVec 128)) (n j : Nat) : Nat := fld (pl.rd 0 n).toNat (32 * j) 32

end Sys2Proof.Machine
end

