-- ==== Sys2Proof/Machine/VectorCore.lean ====
section
/-! DEFINITION. What the V-slot instructions share: their sources, holds and checks (R190 to R194, R344, R408 to R414), and
the element-by-element write (R361, R412). -/

namespace Sys2Proof.Machine

open Sys2Proof

/-! ## Sources (R190 to R193) -/

def latchKey (h : VHdr) (pos : Nat) : Nat := 3 * b2n h.v1 + pos

def Ctx.latch? (c : Ctx) (k : Nat) : Option TileCopy := (c.holds.find? (fun p => p.1 == k)).map (·.2)

/-- The tile a source names, as read at issue. -/
def State.source (s : State) (h : VHdr) (pos : Nat) : VSrc → TileCopy
  | .tile _ n => readTile s.cc s.ct (s.cc.vreg n.toNat)
  | .queue _ n => s.cc.queue.rd TileCopy.zero n.toNat
  | .held => (s.cc.latch? (latchKey h pos)).getD TileCopy.zero

/-- The view of a source, without its bytes. -/
def State.sourceView (s : State) (h : VHdr) (pos : Nat) : VSrc → W64
  | .tile _ n => s.cc.vreg n.toNat
  | .queue _ n => (s.cc.queue.rd TileCopy.zero n.toNat).view
  | .held => ((s.cc.latch? (latchKey h pos)).getD TileCopy.zero).view

/-- The step-1 checks of a source (R413): ILLEGAL 0x07 (R332), a held operand that is not held (R193), and R202.  A queue
entry or a latch was checked when it was filled but for its generation (R191). -/
def State.sourceTrap (s : State) (h : VHdr) (pos : Nat) : VSrc → Option Trap
  | .tile hold n =>
    if hold && s.queueBarred then some ⟨1, 7, slV h, 0, 0⟩ else s.viewCheck (slV h) n.toNat
  | .queue _ n =>
    if s.queueBarred then some ⟨1, 7, slV h, 0, 0⟩
    else s.viewGen (slV h) 0 (s.cc.queue.rd TileCopy.zero n.toNat).view
  | .held =>
    if s.queueBarred then some ⟨1, 7, slV h, 0, 0⟩
    else match s.cc.latch? (latchKey h pos) with
      | none => some (illegal5 (slV h))
      | some q => s.viewGen (slV h) 0 q.view

def State.opTrap (s : State) (h : VHdr) (pos : Nat) : VOp → Option Trap
  | .src v => s.sourceTrap h pos v
  | .scalar _ => none

/-- Latch, keep or end the hold of a position (R192, R193).  In a handler whose record is open the latches are frozen in place, and no
operand latches (R194, R326, R330, R332). -/
def State.holdSrc (s : State) (h : VHdr) (pos : Nat) (v : VSrc) : State :=
  let k := latchKey h pos
  let drop (c : Ctx) : List (Nat × TileCopy) := c.holds.filter (fun p => p.1 != k)
  let take : State := let q := s.source h pos v; s.modCC (fun c => { c with holds := (k, q) :: drop c })
  if s.queueBarred then s else
  match v with
  | .tile hold _ => if hold then take else s.modCC (fun c => { c with holds := drop c })
  | .queue hold _ => if hold then take else s.modCC (fun c => { c with holds := drop c })
  | .held => s

def State.holdOp (s : State) (h : VHdr) (pos : Nat) : VOp → State
  | .src v => s.holdSrc h pos v
  | .scalar _ => s

def srcDirect : VSrc → Bool
  | .tile _ _ => true
  | _ => false

def opDirect : VOp → Bool
  | .src v => srcDirect v
  | .scalar _ => false

/-! ## Operands as values (R410, R411) -/

inductive Opnd where
  | tile (q : TileCopy)
  | scalar (v : W64)

def State.operand (s : State) (h : VHdr) (pos : Nat) : VOp → Opnd
  | .src v => .tile (s.source h pos v)
  | .scalar r => .scalar (s.cc.sreg r.toNat)

/-- The columns one index element feeds: 1, 2 or 4 (R411). -/
def expandWidth (v : W64) : Nat := if vXw v = 1 then 2 else if vXw v = 2 then 4 else 1

/-- Element (i, j) of an operand read as a value is active (R411, R412). -/
def Opnd.active (o : Opnd) (i j : Nat) : Bool :=
  match o with
  | .scalar _ => true
  | .tile q => if isIdx (vType q.view) then vActive q.view i (j / expandWidth q.view) else vActive q.view i j

/-- Element (i, j) of an operand read raw does not keep a result from being written: an inactive MASK bit reads 0 (R361). -/
def Opnd.rawActive (o : Opnd) (i j : Nat) : Bool :=
  match o with
  | .scalar _ => true
  | .tile q => vType q.view == 7 || vActive q.view i j

/-- Element (i, j) of an operand read raw is active, a MASK's too. -/
def Opnd.live (o : Opnd) (i j : Nat) : Bool :=
  match o with
  | .scalar _ => true
  | .tile q => vActive q.view i j

/-- The index an expanded element selects, and the component. -/
def expandIdx (q : TileCopy) (i j : Nat) : Nat × Nat :=
  let w := expandWidth q.view
  (q.elem i (j / w), j % w)

/-- The class-F value of element (i, j) of an operand (R410). -/
def Opnd.fval (t : Tile) (o : Opnd) (i j : Nat) : Fv :=
  match o with
  | .scalar v => fp32.value (v.toNat % 2 ^ 32)
  | .tile q =>
    if isIdx (vType q.view) then
      let b := t.bank (vCb q.view)
      let (n, k) := expandIdx q i j
      fp32.value (valueEntry (b.plane b.act) n k)
    else (fmtOf (vType q.view)).value (q.elem i j)

/-- The class-I value. -/
def Opnd.ival (o : Opnd) (i j : Nat) : Int :=
  match o with
  | .scalar v => v.toInt
  | .tile q => asSigned (typeBits (vType q.view)) (q.elem i j)

/-- The raw bits, 0 where inactive; a scalar gives its low w bits. -/
def Opnd.raw (w : Nat) (o : Opnd) (i j : Nat) : Nat :=
  match o with
  | .scalar v => v.toNat % 2 ^ w
  | .tile q => if vActive q.view i j then q.elem i j else 0

/-- An expanded element whose entry is NaR: its bank and index. -/
def Opnd.nar (t : Tile) (o : Opnd) (i j : Nat) : Option (Nat × Nat) :=
  match o with
  | .scalar _ => none
  | .tile q =>
    if isIdx (vType q.view) then
      let b := t.bank (vCb q.view)
      let n := (expandIdx q i j).1
      if valueEntry (b.plane b.act) n 0 = 0xFFFFFFFF then some (vCb q.view, n) else none
    else none

def badEntryTrap (slot bank n : Nat) : Trap := ⟨5, 1, slot, bank + 16 * n, 0⟩

def firstSome {α β : Type} (f : α → Option β) : List α → Option β
  | [] => none
  | x :: xs => match f x with
    | some y => some y
    | none => firstSome f xs

/-- Elements that an operation on view `d` contributes from: active in d and in every source (R361). -/
def contributors (d : W64) (os : List Opnd) : List (Nat × Nat) :=
  (activeElems d).filter (fun p => os.all (fun o => o.active p.1 p.2))

/-- CODEBOOK 0x01 for the first contributor, in element order then position order, whose entry is NaR (R411). -/
def expandTrap (slot : Nat) (t : Tile) (ps : List (Nat × Nat)) (os : List Opnd) : Option Trap :=
  firstSome (fun p => firstSome (fun o => (o.nar t p.1 p.2).map (fun x => badEntryTrap slot x.1 x.2)) os) ps

/-! ## Type rules (R414, R415) -/

def Opnd.ty : Opnd → Option Nat
  | .scalar _ => none
  | .tile q => some (vType q.view)

def isFsrc (o : Option Nat) : Bool :=
  match o with
  | none => true
  | some t => isF t || isIdx t

def isIsrc (o : Option Nat) : Bool :=
  match o with
  | none => true
  | some t => isI t

/-- RF is legal for a class-F destination of this type (R414). -/
def rfFits (ty rf : Nat) : Bool := rf == 0 || ty == 0 || (rf == 1 && ty == 1) || (rf == 2 && ty == 9)

/-- The arithmetic type rules: destination and sources all of class F, or all of class I with RF = 0. -/
def arithTypes (dty rf : Nat) (os : List (Option Nat)) : Bool :=
  (isF dty && os.all isFsrc && rfFits dty rf) || (isI dty && os.all isIsrc && rf == 0)

/-- A source of element width w, or a scalar. -/
def rawFits (w : Nat) (o : Option Nat) : Bool :=
  match o with
  | none => true
  | some t => t != 8 && typeBits t == w

/-! ## Initiation intervals (R189, R417) -/

/-- The class of an operation: 0 FP32 multiply in V0, 1 in V1, 2 divide and root. -/
def State.intervalTrap (s : State) (h : VHdr) (cls lim : Nat) : Option Trap :=
  let last := s.ct.lastOp.rd 0 (s.cmember + 2 * cls)
  if last != 0 && decide (s.now + 1 < last + lim) then some ⟨1, 3, slV h, 0, 0⟩ else none

def State.markOp (s : State) (cls : Nat) : State :=
  s.modCT (fun t => { t with lastOp := t.lastOp.wr 0 (s.cmember + 2 * cls) (s.now + 1) })

def mulClass (h : VHdr) : Nat := b2n h.v1
def divClass : Nat := 2

/-! ## Destinations -/

/-- The destination check of R413 step 2. -/
def State.destTrap (s : State) (h : VHdr) (d : BitVec 6) : Option Trap := s.viewCheck (slV h) d.toNat

/-- Write a tile result: for each active element of the view, the bits and flags that `f` gives, if any (R412).  A direct
tile source adds 4 cycles (R190). -/
def State.tileResult (s : State) (slot lat : Nat) (direct : Bool) (v : W64) (f : Nat → Nat → Option (Nat × BitVec 7)) : State :=
  let rs := (activeElems v).filterMap (fun p => (f p.1 p.2).map (fun x => (p, x)))
  s.result (if direct then lat + 4 else lat) phLand slot (orAll (rs.map (fun r => r.2.2)))
    (.tile v s.cc.sysw false (rs.flatMap (fun r => elemCells v r.1.1 r.1.2 r.2.1)))

/-- The checks of a V-slot instruction (R413): step 1 alone under a false guard. -/
def State.vchk (s : State) (h : VHdr) (range step1 rest : Option Trap) : Option Trap :=
  orTrap range (orTrap step1 (if s.cc.guard h.g then rest else none))

end Sys2Proof.Machine
end

