-- ==== Sys2Proof/Machine/VectorArith.lean ====
section
/-! DEFINITION. Element arithmetic, special functions, conversions, selection, logic, shifts and compares of the V slots
(R415 to R425). -/

namespace Sys2Proof.Machine

open Sys2Proof

/-! ## Binary arithmetic (R415, R416, R418) -/

/-- The type of an operand before it is read. -/
def State.opTy (s : State) (h : VHdr) (pos : Nat) : VOp → Option Nat
  | .src v => some (vType (s.sourceView h pos v))
  | .scalar _ => none

/-- An instruction of two operands: its latency, RF, whether each class saturates, and what it computes in each class. -/
structure BinOp where
  lat : Nat
  rf  : Nat
  sat : Bool
  satI : Bool
  f   : Fv → Fv → Fv × BitVec 7
  i   : Int → Int → Int

/-- Checks of a value-operand instruction (R413): sources, destination, type rule, interval, expansion. -/
def State.chkValue (s : State) (h : VHdr) (i : Instr) (d : BitVec 6) (srcs : List VOp) (types : Nat → List (Option Nat) → Bool)
    (interval : Option Trap) : Option Trap :=
  let dv := s.cc.vreg d.toNat
  let ps := numbered 0 srcs
  let os := ps.map (fun p => s.operand h p.1 p.2)
  orTrap
    (s.vchk h (Instr.rangeTrap i (slV h)) (firstSome (fun p => s.opTrap h p.1 p.2) ps)
      (orTrap (s.destTrap h d)
        (orTrap (if types (vType dv) (ps.map (fun p => s.opTy h p.1 p.2)) then none else some (illegal5 (slV h)))
          (expandTrap (slV h) s.ct (contributors dv os) os))))
    interval

def State.holds (s : State) (h : VHdr) (srcs : List VOp) : State :=
  (numbered 0 srcs).foldl (fun t p => t.holdOp h p.1 p.2) s

/-- The result of a binary operation at (i, j), when every source is active there. -/
def BinOp.at (o : BinOp) (t : Tile) (dty : Nat) (a b : Opnd) (i j : Nat) : Option (Nat × BitVec 7) :=
  if !(a.active i j && b.active i j) then none
  else if isF dty then
    let (x, fl) := o.f (a.fval t i j) (b.fval t i j)
    let (bits, fl') := storeF dty o.rf o.sat x
    some (bits, fl ||| fl')
  else some (storeI (typeBits dty) o.satI (o.i (a.ival i j) (b.ival i j)))

def State.binWrite (s : State) (h : VHdr) (d : BitVec 6) (a b : VOp) (o : BinOp) : State :=
  let dv := s.cc.vreg d.toNat
  s.tileResult (slV h) o.lat (opDirect a || opDirect b) dv
    (o.at s.ct (vType dv) (s.operand h 0 a) (s.operand h 1 b))

def State.vbin (s : State) (i : Instr) (h : VHdr) (d : BitVec 6) (a : VSrc) (b : VOp) (o : BinOp)
    (types : Nat → List (Option Nat) → Bool) : Out3 :=
  s.slot h.g (s.chkValue h i d [.src a, b] types none)
    (fun s => (s.binWrite h d (.src a) b o).holds h [.src a, b]) (fun s => s.holds h [.src a, b])

def addOp (rf : BitVec 2) (sat : Bool) : BinOp := ⟨4, rf.toNat, sat, sat, Fv.add, (· + ·)⟩
def subOp (rf : BitVec 2) (sat : Bool) : BinOp := ⟨4, rf.toNat, sat, sat, Fv.sub, (· - ·)⟩
def mulOp (rf : BitVec 2) (sat : Bool) : BinOp := ⟨4, rf.toNat, sat, sat, Fv.mul, (· * ·)⟩
def minOp : BinOp := ⟨2, 0, false, true, fun a b => (a.pick false b, 0), min⟩
def maxOp : BinOp := ⟨2, 0, false, true, fun a b => (a.pick true b, 0), max⟩
def divOp (rf : BitVec 2) (sat : Bool) : BinOp := ⟨14, rf.toNat, sat, sat, Fv.div, fun a _ => a⟩

/-- The special functions take class F alone (R418). -/
def fOnly (rf : BitVec 2) (dty : Nat) (ts : List (Option Nat)) : Bool := isF dty && arithTypes dty rf.toNat ts

def execVadd (h : VHdr) (d : BitVec 6) (a : VSrc) (b : VOp) (rf : BitVec 2) (sat : Bool) (s : State) : Out3 :=
  s.vbin (.vadd h d a b rf sat) h d a b (addOp rf sat) (arithTypes · rf.toNat ·)
def execVsub (h : VHdr) (d : BitVec 6) (a : VSrc) (b : VOp) (rf : BitVec 2) (sat : Bool) (s : State) : Out3 :=
  s.vbin (.vsub h d a b rf sat) h d a b (subOp rf sat) (arithTypes · rf.toNat ·)

/-- The FP32 multiply class (R417): an FP32 destination. -/
def State.mulInterval (s : State) (h : VHdr) (d : BitVec 6) : Option Trap :=
  if vType (s.cc.vreg d.toNat) = 0 then s.intervalTrap h (mulClass h) 2 else none

def State.markMul (s : State) (h : VHdr) (d : BitVec 6) : State :=
  if vType (s.cc.vreg d.toNat) = 0 then s.markOp (mulClass h) else s

def chkVmul (h : VHdr) (d : BitVec 6) (a : VSrc) (b : VOp) (rf : BitVec 2) (sat : Bool) (s : State) : Option Trap :=
  s.chkValue h (.vmul h d a b rf sat) d [.src a, b] (arithTypes · rf.toNat ·) (s.mulInterval h d)

def execVmul (h : VHdr) (d : BitVec 6) (a : VSrc) (b : VOp) (rf : BitVec 2) (sat : Bool) (s : State) : Out3 :=
  s.slot h.g (chkVmul h d a b rf sat s)
    (fun s => ((s.binWrite h d (.src a) b (mulOp rf sat)).holds h [.src a, b]).markMul h d)
    (fun s => (s.holds h [.src a, b]).markMul h d)

def chkVfma (h : VHdr) (d : BitVec 6) (a : VSrc) (b c : VOp) (rf : BitVec 2) (sat : Bool) (s : State) : Option Trap :=
  s.chkValue h (.vfma h d a b c rf sat) d [.src a, b, c] (arithTypes · rf.toNat ·) (s.mulInterval h d)

/-- a × b + c at (i, j), rounded once. -/
def fmaAt (t : Tile) (dty rf : Nat) (sat : Bool) (a b c : Opnd) (i j : Nat) : Option (Nat × BitVec 7) :=
  if !(a.active i j && b.active i j && c.active i j) then none
  else if isF dty then
    let (x, fl) := (a.fval t i j).fma (b.fval t i j) (c.fval t i j)
    let (bits, fl') := storeF dty rf sat x
    some (bits, fl ||| fl')
  else some (storeI (typeBits dty) sat (a.ival i j * b.ival i j + c.ival i j))

def State.fmaWrite (s : State) (h : VHdr) (d : BitVec 6) (a : VSrc) (b c : VOp) (rf : BitVec 2) (sat : Bool) : State :=
  let dv := s.cc.vreg d.toNat
  s.tileResult (slV h) 4 (srcDirect a || opDirect b || opDirect c) dv
    (fmaAt s.ct (vType dv) rf.toNat sat (s.operand h 0 (.src a)) (s.operand h 1 b) (s.operand h 2 c))

def execVfma (h : VHdr) (d : BitVec 6) (a : VSrc) (b c : VOp) (rf : BitVec 2) (sat : Bool) (s : State) : Out3 :=
  s.slot h.g (chkVfma h d a b c rf sat s)
    (fun s => ((s.fmaWrite h d a b c rf sat).holds h [.src a, b, c]).markMul h d)
    (fun s => (s.holds h [.src a, b, c]).markMul h d)

def execVmin (h : VHdr) (d : BitVec 6) (a : VSrc) (b : VOp) (s : State) : Out3 :=
  s.vbin (.vmin h d a b) h d a b minOp (arithTypes · 0 ·)
def execVmax (h : VHdr) (d : BitVec 6) (a : VSrc) (b : VOp) (s : State) : Out3 :=
  s.vbin (.vmax h d a b) h d a b maxOp (arithTypes · 0 ·)

def chkVdiv (h : VHdr) (d : BitVec 6) (a : VSrc) (b : VOp) (rf : BitVec 2) (sat : Bool) (s : State) : Option Trap :=
  s.chkValue h (.vdiv h d a b rf sat) d [.src a, b] (fOnly rf) (s.intervalTrap h divClass 4)

def execVdiv (h : VHdr) (d : BitVec 6) (a : VSrc) (b : VOp) (rf : BitVec 2) (sat : Bool) (s : State) : Out3 :=
  s.slot h.g (chkVdiv h d a b rf sat s)
    (fun s => ((s.binWrite h d (.src a) b (divOp rf sat)).holds h [.src a, b]).markOp divClass)
    (fun s => (s.holds h [.src a, b]).markOp divClass)

/-! ## Functions of one operand (R418, R419) -/

/-- f of the value at (i, j), stored as class F. -/
def unAt (f : Fv → Fv × BitVec 7) (t : Tile) (dty rf : Nat) (sat : Bool) (a : Opnd) (i j : Nat) : Option (Nat × BitVec 7) :=
  if !a.active i j then none else
  let (x, fl) := f (a.fval t i j)
  let (bits, fl') := storeF dty rf sat x
  some (bits, fl ||| fl')

def State.unWrite (s : State) (h : VHdr) (lat : Nat) (d : BitVec 6) (a : VSrc) (rf : BitVec 2) (sat : Bool)
    (f : Fv → Fv × BitVec 7) : State :=
  let dv := s.cc.vreg d.toNat
  s.tileResult (slV h) lat (srcDirect a) dv (unAt f s.ct (vType dv) rf.toNat sat (s.operand h 0 (.src a)))

def State.vun (s : State) (i : Instr) (h : VHdr) (lat : Nat) (d : BitVec 6) (a : VSrc) (rf : BitVec 2) (sat : Bool)
    (f : Fv → Fv × BitVec 7) : Out3 :=
  s.slot h.g (s.chkValue h i d [.src a] (fOnly rf) none)
    (fun s => (s.unWrite h lat d a rf sat f).holds h [.src a]) (fun s => s.holds h [.src a])

def chkVsqrt (h : VHdr) (d : BitVec 6) (a : VSrc) (rf : BitVec 2) (sat : Bool) (s : State) : Option Trap :=
  s.chkValue h (.vsqrt h d a rf sat) d [.src a] (fOnly rf) (s.intervalTrap h divClass 4)

def execVsqrt (h : VHdr) (d : BitVec 6) (a : VSrc) (rf : BitVec 2) (sat : Bool) (s : State) : Out3 :=
  s.slot h.g (chkVsqrt h d a rf sat s)
    (fun s => ((s.unWrite h 14 d a rf sat Fv.sqrt).holds h [.src a]).markOp divClass)
    (fun s => (s.holds h [.src a]).markOp divClass)
def execVrsq (h : VHdr) (d : BitVec 6) (a : VSrc) (rf : BitVec 2) (sat : Bool) (s : State) : Out3 :=
  s.vun (.vrsq h d a rf sat) h 8 d a rf sat Fv.rsq
def execVexp2 (h : VHdr) (d : BitVec 6) (a : VSrc) (rf : BitVec 2) (sat : Bool) (s : State) : Out3 :=
  s.vun (.vexp2 h d a rf sat) h 8 d a rf sat Fv.exp2
def execVlog2 (h : VHdr) (d : BitVec 6) (a : VSrc) (rf : BitVec 2) (sat : Bool) (s : State) : Out3 :=
  s.vun (.vlog2 h d a rf sat) h 8 d a rf sat Fv.log2

/-- The pairs of R419: a class-I destination takes neither RF nor SAT. -/
def cvtTypes (rf : BitVec 2) (sat : Bool) (dty : Nat) (ts : List (Option Nat)) : Bool :=
  ts.all (fun t => isFsrc t || isIsrc t)
    && ((isF dty && rfFits dty rf.toNat) || (isI dty && rf == 0 && !sat))

/-- NX is no flag of a conversion to an integer, except as R358 sets it for a finite value. -/
def cvtAt (t : Tile) (dty rf : Nat) (sat : Bool) (a : Opnd) (i j : Nat) : Option (Nat × BitVec 7) :=
  if !a.active i j then none
  else if isF dty then
    some (storeF dty rf sat (if isFsrc a.ty then a.fval t i j else Fv.ofInt (a.ival i j)))
  else if isFsrc a.ty then
    let (x, fl) := roundInt (typeBits dty) (a.fval t i j)
    some (wrap (typeBits dty) x, fl)
  else some (storeI (typeBits dty) true (a.ival i j))

def chkVcvt (h : VHdr) (d : BitVec 6) (a : VSrc) (rf : BitVec 2) (sat : Bool) (s : State) : Option Trap :=
  s.chkValue h (.vcvt h d a rf sat) d [.src a] (cvtTypes rf sat) none

def execVcvt (h : VHdr) (d : BitVec 6) (a : VSrc) (rf : BitVec 2) (sat : Bool) (s : State) : Out3 :=
  s.slot h.g (chkVcvt h d a rf sat s)
    (fun s =>
      let dv := s.cc.vreg d.toNat
      (s.tileResult (slV h) 3 (srcDirect a) dv
        (cvtAt s.ct (vType dv) rf.toNat sat (s.operand h 0 (.src a)))).holds h [.src a])
    (fun s => s.holds h [.src a])

/-! ## Raw moves, selection, logic (R420 to R423) -/

/-- Checks of a raw instruction: sources, destination, equal element widths and a rule of its own. -/
def State.chkRaw (s : State) (h : VHdr) (i : Instr) (d : BitVec 6) (masks srcs : List (Nat × VOp)) (rule : Bool) : Option Trap :=
  let dty := vType (s.cc.vreg d.toNat)
  s.vchk h (Instr.rangeTrap i (slV h)) (firstSome (fun p => s.opTrap h p.1 p.2) (masks ++ srcs))
    (orTrap (s.destTrap h d)
      (if dty != 8 && srcs.all (fun p => rawFits (typeBits dty) (s.opTy h p.1 p.2)) && rule then none
        else some (illegal5 (slV h))))

def execVmov (h : VHdr) (d : BitVec 6) (a : VSrc) (s : State) : Out3 :=
  s.slot h.g (s.chkRaw h (.vmov h d a) d [] [(0, .src a)] true)
    (fun s =>
      let dv := s.cc.vreg d.toNat
      let o := s.operand h 0 (.src a)
      (s.tileResult (slV h) 2 (srcDirect a) dv
        (fun i j => if o.rawActive i j then some (o.raw (typeBits (vType dv)) i j, 0) else none)).holds h [.src a])
    (fun s => s.holds h [.src a])

/-- The one value VSPLAT writes (R421). -/
def splatValue (dty rf : Nat) (sat : Bool) (v : W64) : Nat × BitVec 7 :=
  if isF dty then storeF dty rf sat (fp32.value (v.toNat % 2 ^ 32))
  else if isI dty then storeI (typeBits dty) true v.toInt
  else (v.toNat % 2 ^ typeBits dty, 0)

def chkVsplat (h : VHdr) (d : BitVec 6) (r : BitVec 5) (rf : BitVec 2) (sat : Bool) (s : State) : Option Trap :=
  let dty := vType (s.cc.vreg d.toNat)
  s.vchk h (Instr.rangeTrap (.vsplat h d r rf sat) (slV h)) none
    (orTrap (s.destTrap h d)
      (if dty != 8 && ((isF dty && rfFits dty rf.toNat) || (!isF dty && rf == 0 && !sat)) then none
        else some (illegal5 (slV h))))

def execVsplat (h : VHdr) (d : BitVec 6) (r : BitVec 5) (rf : BitVec 2) (sat : Bool) (s : State) : Out3 :=
  s.slot h.g (chkVsplat h d r rf sat s) (fun s =>
    let dv := s.cc.vreg d.toNat
    let x := splatValue (vType dv) rf.toNat sat (s.cc.sreg r.toNat)
    s.tileResult (slV h) 2 false dv (fun _ _ => some x))

/-- A MASK bit: 0 where the view is inactive (R200). -/
def Opnd.maskBit (o : Opnd) (i j : Nat) : Bool := o.rawActive i j && o.raw 1 i j == 1

def chkVsel (h : VHdr) (d : BitVec 6) (m : VSrc) (a b : VOp) (s : State) : Option Trap :=
  s.chkRaw h (.vsel h d m a b) d [(0, .src m)] [(1, a), (2, b)] (s.opTy h 0 (.src m) == some 7)

def execVsel (h : VHdr) (d : BitVec 6) (m : VSrc) (a b : VOp) (s : State) : Out3 :=
  s.slot h.g (chkVsel h d m a b s)
    (fun s =>
      let dv := s.cc.vreg d.toNat
      let w := typeBits (vType dv)
      let om := s.operand h 0 (.src m)
      let oa := s.operand h 1 a
      let ob := s.operand h 2 b
      (s.tileResult (slV h) 2 (srcDirect m || opDirect a || opDirect b) dv
        (fun i j =>
          if oa.live i j && ob.live i j then
            some (if om.maskBit i j then oa.raw w i j else ob.raw w i j, 0)
          else none)).holds h [.src m, a, b])
    (fun s => s.holds h [.src m, a, b])

/-- A bitwise instruction. -/
def State.vlogic (s : State) (i : Instr) (h : VHdr) (d : BitVec 6) (a : VSrc) (b : VOp) (f : Nat → Nat → Nat) : Out3 :=
  s.slot h.g (s.chkRaw h i d [] [(0, .src a), (1, b)] true)
    (fun s =>
      let dv := s.cc.vreg d.toNat
      let w := typeBits (vType dv)
      let oa := s.operand h 0 (.src a)
      let ob := s.operand h 1 b
      (s.tileResult (slV h) 2 (srcDirect a || opDirect b) dv
        (fun i j => if oa.rawActive i j && ob.rawActive i j then some (f (oa.raw w i j) (ob.raw w i j), 0) else none)).holds
          h [.src a, b])
    (fun s => s.holds h [.src a, b])

def execVand (h : VHdr) (d : BitVec 6) (a : VSrc) (b : VOp) (s : State) : Out3 := s.vlogic (.vand h d a b) h d a b Nat.land
def execVor (h : VHdr) (d : BitVec 6) (a : VSrc) (b : VOp) (s : State) : Out3 := s.vlogic (.vor h d a b) h d a b Nat.lor
def execVxor (h : VHdr) (d : BitVec 6) (a : VSrc) (b : VOp) (s : State) : Out3 := s.vlogic (.vxor h d a b) h d a b Nat.xor

/-! ## Shifts (R424) -/

/-- What a shift amount is: a tile, a scalar or an immediate. -/
inductive Amount where
  | tile (b : VSrc)
  | scalar (r : BitVec 5)
  | imm (n : BitVec 6)

def Amount.ops : Amount → List VOp
  | .tile b => [.src b]
  | _ => []

/-- Checks: D and a of one class-I type, and a tile amount of class I. -/
def State.chkShift (s : State) (h : VHdr) (d : BitVec 6) (a : VSrc) (m : Amount) : Option Trap :=
  let dty := vType (s.cc.vreg d.toNat)
  let bok := match m with
    | .tile b => isI (vType (s.sourceView h 1 b))
    | _ => true
  s.vchk h none (firstSome (fun p => s.opTrap h p.1 p.2) (numbered 0 ([.src a] ++ m.ops)))
    (orTrap (s.destTrap h d)
      (if isI dty && vType (s.sourceView h 0 a) == dty && bok then none else some (illegal5 (slV h))))

/-- The amount for element (i, j), clamped to 0..64. -/
def State.amountAt (s : State) (h : VHdr) (m : Amount) (i j : Nat) : Nat :=
  match m with
  | .tile b => (clampI 0 64 ((s.operand h 1 (.src b)).ival i j)).toNat
  | .scalar r => (clampI 0 64 (s.cc.sreg r.toNat).toInt).toNat
  | .imm n => n.toNat

def shlAt (n : Nat) (sat : Bool) (x : Int) (m : Nat) : Nat × BitVec 7 := storeI n sat (x * 2 ^ m)

def shrAt (n : Nat) (u : Bool) (x : Int) (m : Nat) : Nat × BitVec 7 :=
  (if u then wrap n x / 2 ^ m else wrap n (x / 2 ^ m), 0)

def State.vshift (s : State) (h : VHdr) (d : BitVec 6) (a : VSrc) (m : Amount) (f : Nat → Int → Nat → Nat × BitVec 7) : Out3 :=
  s.slot h.g (s.chkShift h d a m)
    (fun s =>
      let dv := s.cc.vreg d.toNat
      let oa := s.operand h 0 (.src a)
      let tact (i j : Nat) : Bool := match m with
        | .tile b => (s.operand h 1 (.src b)).active i j
        | _ => true
      (s.tileResult (slV h) 2 (srcDirect a || m.ops.any opDirect) dv
        (fun i j =>
          if oa.active i j && tact i j then some (f (typeBits (vType dv)) (oa.ival i j) (s.amountAt h m i j)) else none)).holds
          h ([.src a] ++ m.ops))
    (fun s => s.holds h ([.src a] ++ m.ops))

def execVshlTile (h : VHdr) (d : BitVec 6) (a b : VSrc) (sat : Bool) (s : State) : Out3 :=
  s.vshift h d a (.tile b) (fun n => shlAt n sat)
def execVshlScalar (h : VHdr) (d : BitVec 6) (a : VSrc) (r : BitVec 5) (sat : Bool) (s : State) : Out3 :=
  s.vshift h d a (.scalar r) (fun n => shlAt n sat)
def execVshlImm (h : VHdr) (d : BitVec 6) (a : VSrc) (n : BitVec 6) (sat : Bool) (s : State) : Out3 :=
  s.vshift h d a (.imm n) (fun w => shlAt w sat)
def execVshrTile (h : VHdr) (d : BitVec 6) (a b : VSrc) (u : Bool) (s : State) : Out3 :=
  s.vshift h d a (.tile b) (fun n => shrAt n u)
def execVshrScalar (h : VHdr) (d : BitVec 6) (a : VSrc) (r : BitVec 5) (u : Bool) (s : State) : Out3 :=
  s.vshift h d a (.scalar r) (fun n => shrAt n u)
def execVshrImm (h : VHdr) (d : BitVec 6) (a : VSrc) (n : BitVec 6) (u : Bool) (s : State) : Out3 :=
  s.vshift h d a (.imm n) (fun w => shrAt w u)

/-! ## VCMP (R425) -/

def fCond (cc : Nat) (a b : Fv) : Bool :=
  let un := a.isNan || b.isNan
  let o := a.cmp b
  match cc with
  | 0 => !un && o == .eq
  | 1 => un || o != .eq
  | 2 => !un && o == .lt
  | 3 => !un && o != .gt
  | 4 => !un && o == .gt
  | 5 => !un && o != .lt
  | _ => un

def iCond (cc : Nat) (a b : Int) : Bool :=
  match cc with
  | 0 => a == b
  | 1 => a != b
  | 2 => decide (a < b)
  | 3 => decide (a ≤ b)
  | 4 => decide (b < a)
  | _ => decide (b ≤ a)

/-- The sources of a compare read as class F: all tiles F or index, at least as the first operand says. -/
def cmpTypes (cc : BitVec 4) (dty : Nat) (ts : List (Option Nat)) : Bool :=
  dty == 7 && (ts.all isFsrc || (ts.all isIsrc && cc != 6))

def chkVcmp (h : VHdr) (d : BitVec 6) (a : VSrc) (b : VOp) (cc : BitVec 4) (s : State) : Option Trap :=
  s.chkValue h (.vcmp h d a b cc) d [.src a, b] (cmpTypes cc) none

def cmpAt (t : Tile) (cc : Nat) (a b : Opnd) (i j : Nat) : Option (Nat × BitVec 7) :=
  if !(a.active i j && b.active i j) then none
  else some (b2n (if isFsrc a.ty then fCond cc (a.fval t i j) (b.fval t i j) else iCond cc (a.ival i j) (b.ival i j)), 0)

def execVcmp (h : VHdr) (d : BitVec 6) (a : VSrc) (b : VOp) (cc : BitVec 4) (s : State) : Out3 :=
  s.slot h.g (chkVcmp h d a b cc s)
    (fun s =>
      (s.tileResult (slV h) 2 (srcDirect a || opDirect b) (s.cc.vreg d.toNat)
        (cmpAt s.ct cc.toNat (s.operand h 0 (.src a)) (s.operand h 1 b))).holds h [.src a, b])
    (fun s => s.holds h [.src a, b])

end Sys2Proof.Machine
end

