-- ==== Sys2Proof/Machine/VectorMove.lean ====
section
/-! DEFINITION. Masks, counts, movement of elements, reductions and shape state (R426 to R434). -/

namespace Sys2Proof.Machine

open Sys2Proof

/-! ## VMSK (R426) -/

def State.chkMask (s : State) (h : VHdr) (i : Instr) (d : BitVec 6) (range : Bool) : Option Trap :=
  s.vchk h (Instr.rangeTrap i (slV h)) none
    (orTrap (s.destTrap h d) (if vType (s.cc.vreg d.toNat) == 7 && range then none else some (illegal5 (slV h))))

def State.maskWrite (s : State) (h : VHdr) (d : BitVec 6) (f : Nat → Nat → Bool) : State :=
  s.tileResult (slV h) 1 false (s.cc.vreg d.toNat) (fun i j => some (b2n (f i j), 0))

def execVmskPre (h : VHdr) (d : BitVec 6) (n : BitVec 11) (s : State) : Out3 :=
  s.slot h.g (s.chkMask h (.vmskPre h d n) d true) (fun s => s.maskWrite h d (fun i j => decide (64 * i + j < n.toNat)))
def execVmskRect (h : VHdr) (d : BitVec 6) (nr : BitVec 5) (nc : BitVec 7) (s : State) : Out3 :=
  s.slot h.g (s.chkMask h (.vmskRect h d nr nc) d true)
    (fun s => s.maskWrite h d (fun i j => decide (i < nr.toNat) && decide (j < nc.toNat)))

def chkVmskRng (h : VHdr) (d : BitVec 6) (r : BitVec 5) (s : State) : Option Trap :=
  let v := (s.cc.sreg r.toNat).toNat
  s.chkMask h (.vmskRng h d r) d (decide (fld v 0 11 ≤ 1024) && decide (fld v 16 11 ≤ 1024))

def execVmskRng (h : VHdr) (d : BitVec 6) (r : BitVec 5) (s : State) : Out3 :=
  s.slot h.g (chkVmskRng h d r s) (fun s =>
    let v := (s.cc.sreg r.toNat).toNat
    s.maskWrite h d (fun i j => decide (fld v 0 11 ≤ 64 * i + j) && decide (64 * i + j < fld v 16 11)))

/-! ## VPOP and VEXT (R427, R428) -/

/-- Checks of an instruction that writes a scalar: its source, which must not be ACC. -/
def State.chkScalarDest (s : State) (h : VHdr) (a : VSrc) : Option Trap :=
  s.vchk h none (s.sourceTrap h 0 a) (if vType (s.sourceView h 0 a) == 8 then some (illegal5 (slV h)) else none)

/-- Write a scalar result of a V slot. -/
def State.vscalar (s : State) (h : VHdr) (lat : Nat) (direct : Bool) (d : BitVec 5) (v : W64) : State :=
  s.scalarResult (if direct then lat + 4 else lat) (slV h) d v

def popOf (q : TileCopy) : Nat := ((activeElems q.view).filter (fun p => q.elem p.1 p.2 != 0)).length

def execVpop (h : VHdr) (d : BitVec 5) (a : VSrc) (s : State) : Out3 :=
  s.slot h.g (s.chkScalarDest h a)
    (fun s => (s.vscalar h 4 (srcDirect a) d (.ofNat 64 (popOf (s.source h 0 a)))).holds h [.src a])
    (fun s => s.holds h [.src a])

/-- Element k as VEXT gives it. -/
def extOf (q : TileCopy) (k : Nat) : W64 :=
  let i := k / 64
  let j := k % 64
  let ty := vType q.view
  if !vActive q.view i j then 0
  else if isF ty then .ofNat 64 (fp32.round false ((fmtOf ty).value (q.elem i j))).1
  else if isI ty then .ofInt 64 (asSigned (typeBits ty) (q.elem i j))
  else .ofNat 64 (q.elem i j)

def execVextImm (h : VHdr) (d : BitVec 5) (a : VSrc) (k : BitVec 10) (s : State) : Out3 :=
  s.slot h.g (s.chkScalarDest h a)
    (fun s => (s.vscalar h 3 (srcDirect a) d (extOf (s.source h 0 a) k.toNat)).holds h [.src a])
    (fun s => s.holds h [.src a])
def execVextReg (h : VHdr) (d : BitVec 5) (a : VSrc) (r : BitVec 5) (s : State) : Out3 :=
  s.slot h.g (s.chkScalarDest h a)
    (fun s => (s.vscalar h 3 (srcDirect a) d (extOf (s.source h 0 a) ((s.cc.sreg r.toNat).toNat % 1024))).holds h [.src a])
    (fun s => s.holds h [.src a])

/-! ## VROTR, VROTC, VBCR, VBCC (R429, R430) -/

def State.amtOf (s : State) : VAmt → Nat
  | .imm n => n.toNat
  | .scalar r => (s.cc.sreg r.toNat).toNat

/-- A raw move of one tile source whose element for (i, j) is `f`'s choice. -/
def State.vmove (s : State) (i : Instr) (h : VHdr) (lat : Nat) (d : BitVec 6) (a : VSrc)
    (f : TileCopy → Nat → Nat → Option Nat) : Out3 :=
  s.slot h.g (s.chkRaw h i d [] [(0, .src a)] true)
    (fun s =>
      let q := s.source h 0 a
      (s.tileResult (slV h) lat (srcDirect a) (s.cc.vreg d.toNat) (fun i j => (f q i j).map (fun x => (x, 0)))).holds
        h [.src a])
    (fun s => s.holds h [.src a])

def rotR (n : Nat) (q : TileCopy) (i j : Nat) : Option Nat :=
  let nr := vRows q.view + 1
  if i < nr && j ≤ vCols q.view then some (q.elem (((i : Int) - n) % nr).toNat j) else none

def rotC (n : Nat) (q : TileCopy) (i j : Nat) : Option Nat :=
  let nc := vCols q.view + 1
  if i ≤ vRows q.view && j < nc then some (q.elem i (((j : Int) - n) % nc).toNat) else none

def pickElem (q : TileCopy) (i j : Nat) : Option Nat := some (if vActive q.view i j then q.elem i j else 0)

def execVrotr (h : VHdr) (d : BitVec 6) (a : VSrc) (n : VAmt) (s : State) : Out3 :=
  s.vmove (.vrotr h d a n) h 3 d a (rotR (s.amtOf n))
def execVrotc (h : VHdr) (d : BitVec 6) (a : VSrc) (n : VAmt) (s : State) : Out3 :=
  s.vmove (.vrotc h d a n) h 2 d a (rotC (s.amtOf n))
def execVbcr (h : VHdr) (d : BitVec 6) (a : VSrc) (n : VAmt) (s : State) : Out3 :=
  s.vmove (.vbcr h d a n) h 3 d a (fun q _ j => pickElem q (s.amtOf n % 16) j)
def execVbcc (h : VHdr) (d : BitVec 6) (a : VSrc) (n : VAmt) (s : State) : Out3 :=
  s.vmove (.vbcc h d a n) h 2 d a (fun q i _ => pickElem q i (s.amtOf n % 64))

/-! ## VSHUF (R431) -/

def chkVshuf (h : VHdr) (d : BitVec 6) (a b : VSrc) (s : State) : Option Trap :=
  let bt := vType (s.sourceView h 1 b)
  s.chkRaw h (.vshuf h d a b) d [] [(0, .src a)] (bt == 2 || bt == 3)

/-- The source checks of both positions come first. -/
def chkVshufAll (h : VHdr) (d : BitVec 6) (a b : VSrc) (s : State) : Option Trap :=
  orTrap (Instr.rangeTrap (.vshuf h d a b) (slV h))
    (orTrap (s.sourceTrap h 0 a) (orTrap (s.sourceTrap h 1 b) (chkVshuf h d a b s)))

def shufAt (a : TileCopy) (b : Opnd) (i j : Nat) : Option (Nat × BitVec 7) :=
  if !b.active i j then none else
  let v := b.ival i j
  let k := v.toNat
  some (if 0 ≤ v && v ≤ 1023 && vActive a.view (k / 64) (k % 64) then a.elem (k / 64) (k % 64) else 0, 0)

def execVshuf (h : VHdr) (d : BitVec 6) (a b : VSrc) (s : State) : Out3 :=
  s.slot h.g (chkVshufAll h d a b s)
    (fun s =>
      (s.tileResult (slV h) 6 (srcDirect a || srcDirect b) (s.cc.vreg d.toNat)
        (shufAt (s.source h 0 a) (s.operand h 1 (.src b)))).holds h [.src a, .src b])
    (fun s => s.holds h [.src a, .src b])

/-! ## Reductions (R432, R433) -/

/-- The exact sum of class-F contributors, with the flags of R433. -/
def sumF (xs : List Fv) : Fv × BitVec 7 :=
  let pos := xs.any (· == .inf false)
  let neg := xs.any (· == .inf true)
  let nv := flagIf (pos && neg) flNV
  if xs.any Fv.isNan || (pos && neg) then (.nan, nv)
  else if pos then (.inf false, 0)
  else if neg then (.inf true, 0)
  else match xs with
    | [] => (Fv.zero false, 0)
    | x :: r => (r.foldl (fun a b => (a.add b).1) x, 0)

def extremeF (larger : Bool) (xs : List Fv) : Fv :=
  match xs with
  | [] => .inf larger
  | x :: r => r.foldl (fun a b => a.pick larger b) x

/-- A class-I reduction: `none` for an empty max or min. -/
def reduceI (op : Nat) (xs : List Int) : Option Int :=
  match op with
  | 0 => some (xs.foldl (· + ·) 0)
  | 1 => xs.max?
  | _ => xs.min?

/-- The stored result of a group; in class F, SAT applies to sums only (R433). -/
def redStore (t : Tile) (dty op rf : Nat) (sat : Bool) (o : Opnd) (ps : List (Nat × Nat)) : Nat × BitVec 7 :=
  if isF dty then
    let xs := ps.map (fun p => o.fval t p.1 p.2)
    let (x, fl) := if op = 0 then sumF xs else (extremeF (op == 1) xs, 0)
    let (b, fl') := storeF dty rf (sat && op == 0) x
    (b, fl ||| fl')
  else
    let w := typeBits dty
    match reduceI op (ps.map (fun p => o.ival p.1 p.2)) with
    | some x => storeI w sat x
    | none => (wrap w (if op = 1 then -(2 ^ (w - 1) : Int) else (2 ^ (w - 1) : Int) - 1), 0)

/-- Contributors of group g: column g for a reduction over rows, row g for one over columns. -/
def groupOf (rows : Bool) (o : Opnd) (g : Nat) : List (Nat × Nat) :=
  if rows then ((List.range 16).map (fun i => (i, g))).filter (fun p => o.active p.1 p.2)
  else ((List.range 64).map (fun j => (g, j))).filter (fun p => o.active p.1 p.2)

/-- Element (i, j) of D is a destination of its group (R432). -/
def redDest (rows bc : Bool) (i j : Nat) : Bool := bc || (if rows then i == 0 else j == 0)

def State.chkRed (s : State) (i : Instr) (rows : Bool) (h : VHdr) (d : BitVec 6) (a : VSrc) (bc : Bool) (rf : BitVec 2) :
    Option Trap :=
  let dv := s.cc.vreg d.toNat
  let o := s.operand h 0 (.src a)
  let used := ((activeElems dv).filter (fun p => redDest rows bc p.1 p.2)).flatMap
    (fun p => groupOf rows o (if rows then p.2 else p.1))
  s.vchk h (Instr.rangeTrap i (slV h)) (s.sourceTrap h 0 a)
    (orTrap (s.destTrap h d)
      (orTrap (if arithTypes (vType dv) rf.toNat [s.opTy h 0 (.src a)] then none else some (illegal5 (slV h)))
        (expandTrap (slV h) s.ct used [o])))

def State.vred (s : State) (i : Instr) (rows : Bool) (lat : Nat) (h : VHdr) (d : BitVec 6) (a : VSrc) (op : BitVec 2)
    (bc : Bool) (rf : BitVec 2) (sat : Bool) : Out3 :=
  s.slot h.g (s.chkRed i rows h d a bc rf)
    (fun s =>
      let dv := s.cc.vreg d.toNat
      let o := s.operand h 0 (.src a)
      let groups := (List.range (if rows then 64 else 16)).map
        (fun g => redStore s.ct (vType dv) op.toNat rf.toNat sat o (groupOf rows o g))
      (s.tileResult (slV h) lat (srcDirect a) dv
        (fun i j => if redDest rows bc i j then groups[if rows then j else i]? else none)).holds h [.src a])
    (fun s => s.holds h [.src a])

def execVredr (h : VHdr) (d : BitVec 6) (a : VSrc) (op : BitVec 2) (bc : Bool) (rf : BitVec 2) (sat : Bool) (s : State) : Out3 :=
  s.vred (.vredr h d a op bc rf sat) true 8 h d a op bc rf sat
def execVredc (h : VHdr) (d : BitVec 6) (a : VSrc) (op : BitVec 2) (bc : Bool) (rf : BitVec 2) (sat : Bool) (s : State) : Out3 :=
  s.vred (.vredc h d a op bc rf sat) false 5 h d a op bc rf sat

/-! ## VSHP (R434) -/

/-- The view with new rows, columns and, unless kept, type. -/
def reshape (v : W64) (ty : Option Nat) (rows cols : Nat) : W64 :=
  let n := setFld (setFld v.toNat 22 5 rows) 27 6 cols
  .ofNat 64 (match ty with
    | some t => setFld n 18 4 t
    | none => n)

def State.shpWrite (s : State) (h : VHdr) (d : BitVec 6) (ty : Option Nat) (rows cols : Nat) : State :=
  s.result 1 phLand (slV h) 0 (.vreg s.cc.set d.toNat (viewStore (reshape (s.cc.vreg d.toNat) ty rows cols)))

def execVshpType (h : VHdr) (d : BitVec 6) (ty rows : BitVec 4) (cols : BitVec 6) (s : State) : Out3 :=
  s.slot h.g (Instr.rangeTrap (.vshpType h d ty rows cols) (slV h))
    (fun s => s.shpWrite h d (some ty.toNat) rows.toNat cols.toNat)
def execVshpKeep (h : VHdr) (d : BitVec 6) (rows : BitVec 4) (cols : BitVec 6) (s : State) : Out3 :=
  s.slot h.g none (fun s => s.shpWrite h d none rows.toNat cols.toNat)

/-- A TYPE of 10 to 15 taken from a register raises ILLEGAL 0x05; with KT = 1 the register's TYPE bits are not read (DEDUCED,
log entry 20). -/
def chkVshpReg (h : VHdr) (r : BitVec 5) (s : State) : Option Trap :=
  let v := (s.cc.sreg r.toNat).toNat
  if s.cc.guard h.g && !bitAt v 14 && decide (10 ≤ fld v 10 4) then some (illegal5 (slV h)) else none

def execVshpReg (h : VHdr) (d : BitVec 6) (r : BitVec 5) (s : State) : Out3 :=
  s.slot h.g (chkVshpReg h r s) (fun s =>
    let v := (s.cc.sreg r.toNat).toNat
    s.shpWrite h d (if bitAt v 14 then none else some (fld v 10 4)) (fld v 6 4) (fld v 0 6))

end Sys2Proof.Machine
end

