-- ==== Sys2Proof/Machine/VectorQuant.lean ====
section
/-! DEFINITION. VQLT and VBOFF (R232 to R238, R435 to R437). -/

namespace Sys2Proof.Machine

open Sys2Proof

/-- The destination views of VQLT: nt for IDX4, ⌈nt/2⌉ for IDX8 (R435). -/
def qltCount (dty nt : Nat) : Nat := if dty = 6 then (nt + 1) / 2 else nt

def State.qltDests (s : State) (d : BitVec 6) (nt : Nat) : List Nat :=
  (List.range (qltCount (vType (s.cc.vreg d.toNat)) nt)).map (fun k => d.toNat + k)

def badTermTrap (slot bank t : Nat) : Trap := ⟨5, 1, slot, bank + 16 * (16 * t), 0⟩

def State.activePlane (s : State) (b : Nat) : Table (BitVec 128) := let k := s.ct.bank b; k.plane k.act

def State.chkQlt (s : State) (i : Instr) (h : VHdr) (d : BitVec 6) (a : VSrc) (b : Option VSrc) (cb : BitVec 4) (nt : Nat) :
    Option Trap :=
  let dty := vType (s.cc.vreg d.toNat)
  let ds := s.qltDests d nt
  let bad := (List.range nt).find? (fun t => !termOk (termsOf (s.activePlane cb.toNat) t))
  let step1 := orTrap (s.sourceTrap h 0 a) (match b with
    | some b => s.sourceTrap h 1 b
    | none => none)
  let types := isF (vType (s.sourceView h 0 a))
    && (match b with
      | some b => vType (s.sourceView h 1 b) == 4
      | none => true)
    && isIdx dty && decide (d.toNat + ds.length ≤ 64) && ds.all (fun n => vType (s.cc.vreg n) == dty)
  s.vchk h (Instr.rangeTrap i (slV h)) step1
    (orTrap (firstSome (fun n => if n < 64 then s.viewCheck (slV h) n else none) ds)
      (orTrap (if types then none else some (illegal5 (slV h)))
        (orTrap (if s.ownsBank cb.toNat then none else some ⟨2, 2, slV h, cb.toNat, 0⟩)
          (bad.map (badTermTrap (slV h) cb.toNat)))))

/-- One element on its way through the terms: its place, offset, what is left of it, whether it is a NaN or infinite, and
the indices so far. -/
structure QElem where
  i   : Nat
  j   : Nat
  b   : Int
  r   : Fv
  bad : Bool
  idx : List Nat

/-- Choose one term of one element: the index, and the new sround. -/
def qltTerm (ts : List Term) (zi : Nat) (sr : Bool) (b : Int) (y : Fv) (st : W32) : Nat × W32 :=
  match y with
  | .num neg m e _ =>
    if m = 0 then (zi, st)
    else if sr then
      match stochastic ts b neg m e with
      | .fixed i => (i.getD zi, st)
      | .draw lo hi p =>
        let st := lfsrStep st
        (if st.toNat % 65536 < p then hi else lo.getD zi, st)
    else ((nearest ts b neg m e).getD zi, st)
  | _ => (15, st)

/-- One term over all elements in ascending order, as R236 orders the draws. -/
def qltPass (ts : List Term) (zi : Nat) (sr : Bool) : List QElem → W32 → List QElem × W32
  | [], st => ([], st)
  | x :: xs, st =>
    let (n, st) := if x.bad then (15, st) else qltTerm ts zi sr x.b x.r st
    let r := if x.bad then x.r else residual x.r (chosenValue ts x.b n)
    let (ys, st) := qltPass ts zi sr xs st
    ({ x with r := r, idx := x.idx ++ [n] } :: ys, st)

def qltTerms (pl : Table (BitVec 128)) (sr : Bool) : List Nat → List QElem → W32 → List QElem × W32
  | [], xs, st => (xs, st)
  | t :: tl, xs, st =>
    let ts := termsOf pl t
    let (xs, st) := qltPass ts ((zeroIdx ts).getD 0) sr xs st
    qltTerms pl sr tl xs st

/-- The elements VQLT acts on: active in a and in every destination (R436). -/
def State.qltElems (s : State) (q : TileCopy) (off : Option TileCopy) (ds : List Nat) : List QElem :=
  ((activeElems q.view).filter (fun p => ds.all (fun n => vActive (s.cc.vreg n) p.1 p.2))).map (fun p =>
    let m := (64 * p.1 + p.2) / 8
    let b : Int := match off with
      | some o => if vActive o.view (m / 64) (m % 64) then asSigned 8 (o.elem (m / 64) (m % 64)) else 0
      | none => 0
    let x := (fmtOf (vType q.view)).value (q.elem p.1 p.2)
    let bad := match x with
      | .num .. => false
      | _ => true
    ⟨p.1, p.2, b, x, bad, []⟩)

/-- What destination number n of VQLT stores for an element. -/
def qltBits (dty n : Nat) (x : QElem) : Nat :=
  if dty = 6 then (x.idx[2 * n]?).getD 0 + 16 * (x.idx[2 * n + 1]?).getD 0 else (x.idx[n]?).getD 0

def State.qltWrite (s : State) (h : VHdr) (d : BitVec 6) (a : VSrc) (b : Option VSrc) (cb : BitVec 4) (nt : Nat) (sr : Bool) :
    State :=
  let ds := s.qltDests d nt
  let dty := vType (s.cc.vreg d.toNat)
  let direct := srcDirect a || (match b with
    | some b => srcDirect b
    | none => false)
  let (xs, st) := qltTerms (s.activePlane cb.toNat) sr (List.range nt)
    (s.qltElems (s.source h 0 a) (b.map (s.source h 1)) ds) (s.ct.sroundOf s.cmember)
  let fl := flagIf (xs.any (·.bad)) flNV
  let m := s.cmember
  let s := if sr then
      { s.modCT (fun t => { t with sround := t.sround.wr 1 m st }) with
        cur := { s.cur with sround := some (s.ct.sroundOf m) } }
    else s
  (numbered 0 ds).foldl (fun s p =>
    let v := s.cc.vreg p.2
    s.result (if direct then 10 else 6) phLand (slV h) fl
      (.tile v s.cc.sysw false (xs.flatMap (fun x => elemCells v x.i x.j (qltBits dty p.1 x))))) s

def State.vqlt (s : State) (i : Instr) (h : VHdr) (d : BitVec 6) (a : VSrc) (b : Option VSrc) (cb : BitVec 4)
    (nt : Nat) (sr : Bool) : Out3 :=
  let srcs : List VOp := .src a :: (match b with
    | some b => [.src b]
    | none => [])
  s.slot h.g (s.chkQlt i h d a b cb nt)
    (fun s => (s.qltWrite h d a b cb nt sr).holds h srcs) (fun s => s.holds h srcs)

def execVqlt (h : VHdr) (d : BitVec 6) (a : VSrc) (cb : BitVec 4) (ntm1 : BitVec 2) (sr : Bool) (s : State) : Out3 :=
  s.vqlt (.vqlt h d a cb ntm1 sr) h d a none cb (ntm1.toNat + 1) sr
def execVqltOffsets (h : VHdr) (d : BitVec 6) (a b : VSrc) (cb : BitVec 4) (ntm1 : BitVec 2) (sr : Bool) (s : State) : Out3 :=
  s.vqlt (.vqltOffsets h d a b cb ntm1 sr) h d a (some b) cb (ntm1.toNat + 1) sr

/-! ## VBOFF (R238, R437) -/

/-- The largest e among the valid non-zero entries 0 to 15. -/
def etop (ts : List Term) : Option Int := ((ts.filter Term.nonzero).map (·.e)).max?

def chkVboff (h : VHdr) (d : BitVec 6) (a : VSrc) (cb : BitVec 4) (s : State) : Option Trap :=
  s.vchk h none (s.sourceTrap h 0 a)
    (orTrap (s.destTrap h d)
      (orTrap (if isF (vType (s.sourceView h 0 a)) && vType (s.cc.vreg d.toNat) == 4 then none else some (illegal5 (slV h)))
        (orTrap (if s.ownsBank cb.toNat then none else some ⟨2, 2, slV h, cb.toNat, 0⟩)
          (if (etop (termsOf (s.activePlane cb.toNat) 0)).isSome then none else some (badTermTrap (slV h) cb.toNat 0)))))

/-- b_m of block m (R238). -/
def boffOf (q : TileCopy) (top : Int) (m : Nat) : Int :=
  let gs := (List.range 8).filterMap (fun r =>
    let k := 8 * m + r
    if !vActive q.view (k / 64) (k % 64) then none else
    match (fmtOf (vType q.view)).value (q.elem (k / 64) (k % 64)) with
    | .num _ mm e _ => if mm = 0 then none else some (nearestEighths mm e)
    | _ => none)
  match gs.max? with
  | none => 0
  | some g => clampI (-128) 127 (g - top)

def execVboff (h : VHdr) (d : BitVec 6) (a : VSrc) (cb : BitVec 4) (s : State) : Out3 :=
  s.slot h.g (chkVboff h d a cb s)
    (fun s =>
      let q := s.source h 0 a
      let top := (etop (termsOf (s.activePlane cb.toNat) 0)).getD 0
      (s.tileResult (slV h) 4 (srcDirect a) (s.cc.vreg d.toNat)
        (fun i j => if 64 * i + j < 128 then some (wrap 8 (boffOf q top (64 * i + j)), 0) else none)).holds h [.src a])
    (fun s => s.holds h [.src a])

end Sys2Proof.Machine
end

