-- ==== Sys2Proof/Machine/Array.lean ====
section
/-! DEFINITION. The array engine (08_array.md, 15_isa_array.md): AMODE, WLOAD, WLOADG, STREAM, STREAMT, DRAIN, ACLR, WSTORE,
and the codebook instructions CBLD, CBFLIP and CBST. -/

namespace Sys2Proof.Machine

open Sys2Proof

/-! ## Checks in the order of R440 -/

/-- Encoding and PRIV checks; values read at issue; views read as sources, which a false guard keeps (R343); the rest. -/
def State.achk (s : State) (g : Guard) (enc values sources rest : Option Trap) : Option Trap :=
  let on := s.cc.guard g
  orTrap enc (orTrap (if on then values else none) (orTrap sources (if on then rest else none)))

def allTraps : List (Option Trap) → Option Trap
  | [] => none
  | t :: ts => orTrap t (allTraps ts)

def State.bankTrap (s : State) (b : Nat) : Option Trap := if s.ownsBank b then none else some ⟨2, 2, slA, b, 0⟩
def State.planeTrap (s : State) (p : Nat) : Option Trap := if s.ownsPlane p then none else some ⟨2, 4, slA, p, 0⟩

/-! ## The stream descriptor (R446) -/

structure StreamD where
  line : Nat
  m    : Nat
  acc0 : Nat
  q    : Nat
  o    : Int
  a    : Nat
  w2   : Bool
  pl   : Nat
  acb  : Nat
  src  : Nat
  fwd  : Nat
  rest : Nat

def streamD (v : W64) : StreamD :=
  let n := v.toNat
  ⟨fld n 0 16, fld n 16 6 + 1, fld n 22 6, fld n 28 6, asSigned 8 (fld n 34 8), fld n 42 2 + 1, bitAt n 44, fld n 45 1,
    fld n 46 4, fld n 50 3, fld n 53 3, fld n 56 8⟩

/-- Passes per row. -/
def StreamD.p (d : StreamD) : Nat := if d.w2 then 2 * d.a else d.a

/-- The limits of the descriptor's fields. -/
def StreamD.bad (d : StreamD) (grouped : Bool) : Bool :=
  decide ((if grouped then 24576 else 49152) ≤ d.line) || (d.src != 0 && d.line != 0) || decide (64 < d.acc0 + d.m)
    || decide (48 ≤ d.q) || decide (4 < d.src) || decide (4 < d.fwd) || (d.src != 0 && d.fwd == d.src)
    || (d.w2 && d.pl != 0) || d.rest != 0

/-- The planes of weight terms 0 and 1. -/
def StreamD.planes (d : StreamD) : List Nat := if d.w2 then [0, 1] else [d.pl]

/-! ## Accepted array commands (R254) -/

def ECmd.desc (c : ECmd) : StreamD := streamD (c.vals.headD 0)

/-- The plane a WLOAD or WLOADG writes. -/
def ECmd.loadPlane (c : ECmd) : Option Nat :=
  match c.ins with
  | .wload _ _ pl _ _ _ => some (b2n pl)
  | .wloadg _ _ _ pl _ _ _ => some (b2n pl)
  | .wloadgImg _ _ _ pl _ => some (b2n pl)
  | _ => none

/-- The entries a DRAIN reads: first and count (R258). -/
def drainEntries (e0 : Nat) (turn : Bool) (v : W64) : Nat × Nat := (e0, (if turn then vCols v else vRows v) + 1)

/-- The entries a DRAIN reads or an ACLR writes. -/
def ECmd.touches (c : ECmd) : Option (Nat × Nat) :=
  match c.ins with
  | .drain _ _ e0 _ _ _ _ turn _ _ => some (drainEntries e0.toNat turn (c.views.headD 0))
  | .aclr _ e0 nm1 => some (e0.toNat, nm1.toNat + 1)
  | _ => none

/-- The cycle W at which a load writes its plane (R254). -/
def loadW (t : Nat) : Nat := t + 24

/-- Streams whose fill interval holds cycle t for an entry among n from e. -/
def fillingAt (cs : List ECmd) (t e n : Nat) : List ECmd :=
  cs.filter (fun c => c.isStream && decide (c.t ≤ t) && decide (t ≤ c.last) && meets c.desc.acc0 c.desc.m e n)

/-- The last cycle of a stream's input interval. -/
def ECmd.inputEnd (c : ECmd) : Nat := c.t + c.desc.m * c.desc.p - 1

/-- Accept an array command: finished streams leave the list, and the engine starts it at T. -/
def State.acceptArr (s : State) (c : ECmd) (evs : State → State) : State :=
  let s := s.modCT (fun t => { t with arr := t.arr.filter (fun x => !(x.isStream && decide (x.last < s.cmdNow s.cur.tile x))) ++ [c] })
  evs { s with nextId := s.nextId + 1 }

def State.startAt (s : State) (e : Engine) (t id : Nat) : State :=
  s.at s.eclk t (if t = s.enow then phEngine else phRow) (.engineStart (.ofNat 8 s.cur.tile) e id)

/-! ## AMODE (R442) -/

/-- The landing cycle and the PC of each amode.split of the field that is in flight on the tile. -/
def State.splitLandings (s : State) : List (Nat × Nat) :=
  (List.range 4).flatMap (fun h =>
    let c := s.ctx s.cur.tile h
    if c.field == some s.cf then
      c.inflight.filterMap (fun (r : Result) => if r.dest == .arrayMode true then some (s.enow + (r.land - s.now), c.lastPc.rd 0 16) else none)
    else [])

def State.setMode (s : State) (sp : Bool) : State :=
  (s.result 4 phLand slA 0 (.arrayMode sp)).modCC (fun c => { c with lastPc := c.lastPc.wr 0 16 s.cur.pc })

def chkAmodeNorm (g : Guard) (s : State) : Option Trap :=
  if s.cc.guard g && s.cgrouped then some ⟨2, 1, slA, 0, 0⟩ else none

def execAmodeNorm (g : Guard) (s : State) : Out3 := s.slot g (chkAmodeNorm g s) (fun s => s.setMode false)

/-- TIMING names a stream with w = 2 whose input ends at or after the landing of the mode, by the stream's own clock; a stream of a field
that stands still ends no earlier meanwhile. -/
def chkAmodeSplit (g : Guard) (s : State) : Option Trap :=
  if s.cc.guard g && !s.cgrouped then
    s.conflict slA 3 (s.enow + 4 : Nat)
      (pcsOf (s.ct.arr.filter (fun c => c.isStream && c.desc.w2
        && decide (s.cmdNow s.cur.tile c + (if c.dclk || !s.cfrozen then 4 else 0) ≤ c.inputEnd))))
  else none

def execAmodeSplit (g : Guard) (s : State) : Out3 :=
  s.slot g (chkAmodeSplit g s) (fun s => if s.cgrouped then s else s.setMode true)

/-! ## WLOAD and WLOADG (R443 to R445) -/

/-- The register-space bytes behind some views. -/
def State.viewRegions (s : State) (vs : List W64) : List Region := vs.map (fun v => .reg s.cur.hw (vBase v) (footprint (vType v)))

/-- The TIMING checks of a load that reads `src` at T (R207, R255). -/
def State.loadTiming (s : State) (t : Int) (pl : Nat) (src : List Region) : Option Trap :=
  let n := t.toNat
  let cs := (s.peers s.ct.arr).filter (fun c =>
    (c.isStream && c.desc.planes.contains pl && decide (loadW n ≤ c.t + c.desc.m * c.desc.p + 509))
      || (c.loadPlane == some pl && decide (loadW n ≤ loadW c.t)))
  allTraps [lateTrap slA t s.enow, s.conflict slA 2 t (pcsOf (s.stillWriting n src)), s.conflict slA 3 t (pcsOf cs),
    boundTrap s slA t s.ct.arr]

def State.acceptLoad (s : State) (i : Instr) (t : Nat) (views : List W64) (banks : List Nat) : State :=
  let c := { s.newCmd i t (loadW t) with
    views := views, bound := banks.map (fun b => (b, (s.ct.bank b).act)), expand := t + 23 }
  s.acceptArr c (fun s => (s.startAt .array t c.id).at s.eclk (loadW t) phLand (.planeWrite (.ofNat 8 s.cur.tile) c.id))

def chkWload (g : Guard) (pl : Bool) (cb : BitVec 4) (tm : Timing) (s : State) : Option Trap :=
  s.achk g none (s.startTrap slA tm) none
    (allTraps [s.bankTrap cb.toNat, s.planeTrap (b2n pl), s.loadTiming (s.estart tm) (b2n pl) []])

def execWload (g : Guard) (slot : BitVec 9) (pl : Bool) (cb term : BitVec 4) (tm : Timing) (s : State) : Out3 :=
  s.slot g (chkWload g pl cb tm s)
    (fun s => s.acceptLoad (.wload g slot pl cb term tm) (s.estart tm).toNat [] [cb.toNat])

def sixteen (n : BitVec 6) : List Nat := (List.range 16).map (· + n.toNat)

def chkWloadg (i : Instr) (g : Guard) (n : BitVec 6) (pl : Bool) (tm : Timing) (s : State) : Option Trap :=
  let views := (sixteen n).map s.cc.vreg
  s.achk g (Instr.rangeTrap i slA) (s.startTrap slA tm) (firstSome (s.viewCheck slA) (sixteen n))
    (allTraps [
      (if views.all (fun v => vType v == 5) then none else some (illegal5 slA)),
      firstSome (fun v => s.bankTrap (vCb v)) views,
      s.planeTrap (b2n pl),
      s.loadTiming (s.estart tm) (b2n pl) (s.viewRegions views)])

def execWloadg (g : Guard) (n : BitVec 6) (h : BitVec 2) (pl : Bool) (term : BitVec 4) (ob : Byte) (tm : Timing) (s : State) :
    Out3 :=
  s.slot g (chkWloadg (.wloadg g n h pl term ob tm) g n pl tm s) (fun s =>
    let views := (sixteen n).map s.cc.vreg
    s.acceptLoad (.wloadg g n h pl term ob tm) (s.estart tm).toNat views (views.map vCb))

/-- Bytes of a quarter image (R445). -/
def quarterBytes : Nat := 34824

/-- An image that a command writes to the accumulator alias meets no stream that is still filling one of its entries, outside a freeze
(R201). -/
def State.aliasBusy (s : State) (slot base n : Nat) : Option Trap :=
  let (e, k) := aliasEntries base n
  if s.cfrozen || decide (base + n ≤ 0x20000) then none
  else s.conflict slot 3 (s.enow : Nat) (pcsOf (fillingAt (s.peers s.ct.arr) s.enow e k))

/-- The view's TYPE, ROWS and COLS are ignored (R445); its generation is not (R202). -/
def chkWloadgImg (g : Guard) (n : BitVec 6) (pl : Bool) (tm : Timing) (s : State) : Option Trap :=
  let v := s.cc.vreg n.toNat
  s.achk g (s.sysTrap slA 3) (s.startTrap slA tm)
    (orTrap (if s.cc.guard g then s.imageCheck slA (vBase v) quarterBytes else none) (s.viewGen slA n.toNat v))
    (allTraps [s.planeTrap (b2n pl), s.imageRange slA (vBase v) quarterBytes,
      (s.loadTiming (s.estart tm) (b2n pl) [.reg s.cur.hw (vBase v) quarterBytes])])

def execWloadgImg (g : Guard) (n : BitVec 6) (h : BitVec 2) (pl : Bool) (tm : Timing) (s : State) : Out3 :=
  s.slot g (chkWloadgImg g n pl tm s)
    (fun s => s.acceptLoad (.wloadgImg g n h pl tm) (s.estart tm).toNat [s.cc.vreg n.toNat] [])

/-- IDX of depth d in 128 bytes of packed 4-bit indices (R244). -/
def idxAt (bs : List Byte) (d : Nat) : Nat := fld ((bs[d / 2]?).getD 0).toNat (4 * (d % 2)) 4

/-- A plane's new content as (cell + 2^16 × offset) from a key on, and its band scales. -/
structure PlaneNew where
  from_  : Nat
  cells  : List Nat
  scales : List Nat

/-- The expansion of a weight-die slot (R245). -/
def expandSlot (wd : Mem) (slot : Nat) (pl : Table (BitVec 128)) (term : Nat) : PlaneNew :=
  let base := 65536 * slot
  ⟨0, (List.range 65536).map (fun k =>
      let d := k / 256
      let col := base + 256 * (k % 256)
      let i := fld (wd.byte (col + d / 2)).toNat (4 * (d % 2)) 4
      fld (pl.rd 0 (16 * term + i)).toNat 0 16 + 2 ^ 16 * (wd.byte (col + 128 + d / 8)).toNat),
    (List.range 4).map (fun g => wd.num (base + 256 * (64 * g) + 160) 2)⟩

def viewBytes (c : Ctx) (t : Tile) (sysw : Bool) (v : W64) : TileCopy :=
  ⟨v, Mem.setBytes [] 0 ((List.range (footprint (vType v))).map (fun k => regByte c t sysw (vBase v + k)))⟩

/-- The expansion of sixteen IDX4 views into a quarter (R246). -/
def expandViews (c : Ctx) (t : Tile) (e : ECmd) (h term : Nat) (ob : Byte) : PlaneNew :=
  let tiles := e.views.map (viewBytes c t e.sysw)
  ⟨16384 * h, (List.range 16384).map (fun k =>
      let d := k / 256
      let j := k % 256
      let n := 4 * (d / 16) + j / 64
      let q := (tiles[n]?).getD TileCopy.zero
      let (b, p) := (e.bound[n]?).getD (0, 0)
      let x := if vActive q.view (d % 16) (j % 64) then
          fld ((t.bank b).entry p (16 * term + q.elem (d % 16) (j % 64))).toNat 0 16
        else 0xC000
      x + 2 ^ 16 * ob.toNat), List.replicate 4 0x3F80⟩

/-- The quarter image at an address (R445). -/
def expandImage (bs : List Byte) (h : Nat) : PlaneNew :=
  ⟨16384 * h, (List.range 16384).map (fun k =>
      numAt bs (2 * k) 2 + 2 ^ 16 * numAt bs (32768 + 256 * (k / 2048) + k % 256) 1),
    (List.range 4).map (fun g => numAt bs (34816 + 2 * g) 2)⟩

/-- Replace a run of keys of a table. -/
def Table.setRun {α : Type} [DecidableEq α] (d : α) (t : Table α) (lo : Nat) (vs : List α) : Table α :=
  t.filter (fun e => decide (e.1 < lo)) ++ (numbered lo vs).filter (fun e => decide (e.2 ≠ d))
    ++ t.filter (fun e => decide (lo + vs.length ≤ e.1))

/-- PLANE_WRITE (R245, R246, R445): the plane holds the new content at T + 24. -/
def execPlaneWrite (tile : BitVec 8) (id : Nat) (s : State) : Out3 :=
  let t := s.tile tile.toNat
  match findE t.arr id with
  | none => .next s
  | some c =>
    let p := c.loadPlane.getD 0
    let lo := 65536 * p + c.prog
    let vs := c.sums.map (·.2)
    .next (s.setTile tile.toNat { t with
      cells := Table.setRun 0xC000 t.cells lo (vs.map (fun x => BitVec.ofNat 16 x)),
      boff := Table.setRun 0 t.boff lo (vs.map (fun x => BitVec.ofNat 8 (x / 2 ^ 16))),
      scale := Table.setRun 0x3F80 t.scale (4 * p) (c.masks.map (fun x => BitVec.ofNat 16 x)),
      arr := dropE t.arr id })

/-! ## STREAM and STREAMT (R446 to R448) -/

def viewOf (s : State) (v : Option (BitVec 6)) : Option W64 := v.map (fun n => s.cc.vreg n.toNat)

/-- The mesh slots a stream holds (R256, R448). -/
def StreamD.slots (d : StreamD) (t : Nat) : List MeshSlot :=
  (List.range d.m).flatMap (fun r =>
    (if d.src = 0 then [] else [⟨false, d.src - 1, t + r * d.p, d.a⟩])
      ++ (if d.fwd = 0 then [] else [⟨true, d.fwd - 1, t + r * d.p + 2, d.a⟩]))

def StreamD.source (d : StreamD) : List Region := if d.src = 0 then [.lines true d.line (8 * d.a * d.m)] else []

/-- The TIMING checks of a stream (R207, R255, R442, R448). -/
def State.streamTiming (s : State) (d : StreamD) (masks : List W64) (t : Int) : Option Trap :=
  let n := t.toNat
  let cs := s.peers s.ct.arr
  let missed := cs.filter (fun c => match c.loadPlane with
    | some p => d.planes.contains p && decide (n < loadW c.t)
    | none => false)
  let busy := cs.filter (fun c =>
    (c.isStream && meets n (d.m * d.p) c.t (c.desc.m * c.desc.p))
      || (match c.touches with
        | some (e, k) => meets e k d.acc0 d.m && decide (n ≤ c.t) && decide (c.t ≤ n + d.m * d.p + 519)
        | none => false))
  let split := (s.splitLandings.filter (fun x => d.w2 && decide (x.1 ≤ n + d.m * d.p - 1))).map (·.2)
  allTraps [
    lateTrap slA t s.enow,
    s.conflict slA 2 t (pcsOf (missed ++ s.stillWriting n (d.source ++ s.viewRegions masks))),
    s.conflict slA 3 t (pcsOf (busy ++ s.meshHolders (d.slots n)) ++ split),
    boundTrap s slA t s.ct.arr]

/-- The array busy cycles of a stream as class-A charges (R25, R30). -/
def State.streamCharges (s : State) (d : StreamD) (t : Int) : List (Nat × Nat) :=
  s.ct.chargesA (s.globalAt t) (d.m * d.p)

def chkStream (g : Guard) (sr : BitVec 5) (rm km nm : Option (BitVec 6)) (tm : Timing) (s : State) : Option Trap :=
  let d := streamD (s.cc.sreg sr.toNat)
  let masks := [rm, km, nm].filterMap id
  let t := s.estart tm
  let ports := (if d.src = 0 then [] else [d.src - 1]) ++ (if d.fwd = 0 then [] else [d.fwd - 1])
  s.achk g none (orTrap (s.startTrap slA tm) (if d.bad s.cgrouped then some (illegal5 slA) else none))
    (firstSome (fun n => s.viewCheck slA n.toNat) masks)
    (allTraps [
      (if masks.all (fun n => vType (s.cc.vreg n.toNat) == 7) && !(d.w2 && s.ct.split) then none else some (illegal5 slA)),
      s.bankTrap d.acb,
      firstSome s.planeTrap d.planes,
      firstSome (s.meshTrap slA) ports,
      s.entryTrap slA d.acc0 d.m,
      (if d.src = 0 then (s.badLines true d.line (8 * d.a * d.m)).map (protScratch slA) else none),
      s.streamTiming d (masks.map (fun n => s.cc.vreg n.toNat)) t,
      s.powerTrap slA s.cf 0 (s.streamCharges d t)])

/-- A stream of the issuing context, by its descriptor and mask views (R447). -/
def State.streamCmd (s : State) (i : Instr) (v : W64) (views : List W64) (n : Nat) : ECmd :=
  let d := streamD v
  { s.newCmd i n (n + d.m * d.p + 519) with
    vals := [v], views := views, bound := [(d.acb, (s.ct.bank d.acb).act)], expand := n + (d.m - 1) * d.p, slots := d.slots n }

/-- Accept a stream: charge it, bind its activation bank, and start at T (R447). -/
def State.acceptStream (s : State) (i : Instr) (sr : BitVec 5) (rm km nm : Option (BitVec 6)) (tm : Timing) : State :=
  let v := s.cc.sreg sr.toNat
  let d := streamD v
  let t := s.estart tm
  let n := t.toNat
  let c := s.streamCmd i v [(viewOf s rm).getD 0, (viewOf s km).getD 0, (viewOf s nm).getD 0] n
  let s := (s.payPower s.cf 0 (s.streamCharges d t)).modCT (fun x => x.addBusy (s.globalAt t) (d.m * d.p))
  s.acceptArr c (fun s => s.startAt .array n c.id)

def execStream (g : Guard) (sr : BitVec 5) (rm km nm : Option (BitVec 6)) (tm : Timing) (s : State) : Out3 :=
  s.slot g (chkStream g sr rm km nm tm s) (fun s => s.acceptStream (.stream g sr rm km nm tm) sr rm km nm tm)
def execStreamt (g : Guard) (sr : BitVec 5) (rm km nm : Option (BitVec 6)) (tm : Timing) (s : State) : Out3 :=
  s.slot g (chkStream g sr rm km nm tm s) (fun s => s.acceptStream (.streamt g sr rm km nm tm) sr rm km nm tm)

/-- The stream names a mask RM, KM or NM. -/
def ECmd.hasMask (c : ECmd) (k : Nat) : Bool :=
  let at_ (rm km nm : Option (BitVec 6)) : Bool := (([rm, km, nm][k]?).getD none).isSome
  match c.ins with
  | .stream _ _ rm km nm _ => at_ rm km nm
  | .streamt _ _ rm km nm _ => at_ rm km nm
  | _ => false

/-- Mask bits k < n as a number; all ones where the operand is `none` (R250, R446). -/
def maskBits (c : Ctx) (t : Tile) (e : ECmd) (k n : Nat) : Nat :=
  if !e.hasMask k then 2 ^ n - 1
  else
    let q := viewBytes c t e.sysw ((e.views[k]?).getD 0)
    (List.range n).foldl (fun acc i =>
      if vActive q.view (i / 64) (i % 64) && q.elem (i / 64) (i % 64) == 1 then acc + 2 ^ i else acc) 0

/-- Index of term ta at depth d of a row's bytes (R247). -/
def rowIdx (a : Nat) (bs : List Byte) (ta d : Nat) : Nat :=
  let u := ta / 2
  if 2 * u + 1 < a then fld ((bs[256 * u + d]?).getD 0).toNat (4 * (ta % 2)) 4
  else fld ((bs[256 * u + d / 2]?).getD 0).toNat (4 * (d % 2)) 4

/-- Contribution of a combined exponent: the signed integer, and whether it sets the range flag (R248). -/
def cellRule (ex : Int) (q : Nat) (neg : Bool) : Int × Bool :=
  let s : Int := ex / 8 + q - 15
  let m := if 0 ≤ s then fracTable (ex % 8).toNat * 2 ^ s.toNat else fracTable (ex % 8).toNat / 2 ^ (-s).toNat
  (signed neg m, decide (32 ≤ s))

/-- Add a contribution to [47:0] with its range flag in [48] (R239). -/
def accAdd (x : Nat) (c : Int) (r : Bool) : Nat :=
  wrap 48 ((x % 2 ^ 48 : Nat) + c) + 2 ^ 48 * b2n (r || bitAt x 48)

/-- A row on its way in: what R248 and R252 read. -/
structure RowIn where
  tr   : Bool
  d    : StreamD
  km   : Nat
  nm   : Nat
  idx  : List (List Nat)
  acts : List (List Term)

/-- The pair of cell (d, j) is unmasked (R248, R249). -/
def RowIn.open_ (r : RowIn) (d j : Nat) : Bool := if r.tr then bitAt r.km j && bitAt r.nm d else bitAt r.km d && bitAt r.nm j

/-- The activation term of a pass for cell (d, j). -/
def RowIn.act (r : RowIn) (ta d j : Nat) : Term := (((r.acts[ta]?).getD [])[if r.tr then j else d]?).getD ⟨false, true, false, 0⟩

/-- The first invalid activation of an unmasked pair: (term, index) (R252). -/
def RowIn.badAct (r : RowIn) : Option (Nat × Nat) :=
  if r.nm = 0 then none
  else firstSome (fun ta => firstSome (fun d =>
    if bitAt r.km d && !((((r.acts[ta]?).getD [])[d]?).getD ⟨false, true, false, 0⟩).valid then
      some (ta, (((r.idx[ta]?).getD [])[d]?).getD 0)
    else none) (List.range 256)) (List.range r.d.a)

/-- The listed cells of a plane, as (depth, lane, bits).  A cell not listed is a valid zero, which adds nothing. -/
def Tile.planeCells (t : Tile) (p : Nat) : List (Nat × Nat × Nat) :=
  (t.cells.filter (fun e => e.1 / 65536 == p)).map (fun e => (e.1 % 65536 / 256, e.1 % 256, e.2.toNat))

/-- The first invalid weight cell of an unmasked pair, by depth, lane and plane (R252). -/
def RowIn.badCell (r : RowIn) (t : Tile) : Option (Nat × Nat × Nat) :=
  let bad := r.d.planes.flatMap (fun p => (t.planeCells p).filterMap (fun (d, j, x) =>
    if r.open_ d j && !bitAt x 15 then some (131072 * d + 2 * j + p) else none))
  (bad.min?).map (fun k => (k / 131072, k % 131072 / 2, k % 2))

/-- tinfo1 of R252. -/
def RowIn.fault (r : RowIn) (t : Tile) : Option Nat :=
  match r.badAct with
  | some (ta, i) => some (r.d.acb + 16 * (16 * ta + i))
  | none => (r.badCell t).map (fun (d, j, p) => 2 ^ 12 + 2 ^ 13 * p + 2 ^ 14 * d + 2 ^ 22 * j)

/-- The sums of pass q of a row, added into a table keyed (row × p + q) × 256 + lane (R248, R249). -/
def RowIn.pass (r : RowIn) (t : Tile) (row q : Nat) (acc : Table Nat) : Table Nat :=
  let p := (r.d.planes[q / r.d.a]?).getD 0
  (t.planeCells p).foldl (fun acc (d, j, x) =>
    let a := r.act (q % r.d.a) d j
    if r.open_ d j && !bitAt x 14 && !a.zero then
      let ex := asSigned 8 x + (t.cellOff p d j).toInt + a.e + r.d.o
      let (c, rg) := cellRule ex r.d.q (bitAt x 13 != a.sign)
      let key := (row * r.d.p + q) * 256 + (if r.tr then d else j)
      acc.wr 0 key (accAdd (acc.rd 0 key) c rg)
    else acc) acc

/-- The row that has arrived on a port of a tile at cycle c of the field (R257), with the beats its sender gave it. -/
def arrivedRow (bs : List Beat) (f port c : Nat) : Option (List Byte) :=
  (bs.find? (fun b => b.field == f && b.port == port && b.at_ == c && b.idx == 0 && b.cnt != 0)).bind (fun b0 =>
    let here := (List.range b0.cnt).map (fun i =>
      bs.find? (fun b => b.field == f && b.port == port && b.at_ == c + i && b.idx == i && b.cnt == b0.cnt))
    if here.all Option.isSome then some (here.flatMap (fun b => (b.map (·.bytes)).getD [])) else none)

/-- A row's bytes as a receiver of `n` bytes takes them: the spec does not state what it reads of a shorter row past its end, and that is
free (log entry 103). -/
def State.rowBytes (s : State) (n : Nat) (bs : List Byte) : List Byte × State :=
  if n ≤ bs.length then (bs.take n, s)
  else
    let (k, s) := s.drawFree
    (bs ++ leBytes (n - bs.length) k, s)

/-- Send a row's beats to the neighbour: they arrive from `c` on (R256). -/
def State.sendBeats (s : State) (t f port c cnt : Nat) (bs : List Byte) : State :=
  match neighbour t port with
  | none => s
  | some nb =>
    let now := s.tcycOf f
    let new := (List.range (bs.length / 128)).map (fun i =>
      (⟨f, oppositePort port, c + hopCycles t nb + i, i, cnt, bytesAt bs (128 * i) 128⟩ : Beat))
    s.modTile nb (fun x => { x with beats := x.beats.filter (fun b => b.field != f || decide (now ≤ b.at_ + 8)) ++ new })

/-- rstpt of R333. -/
def rstptOf (c : ECmd) (row : Nat) (auto : Bool) : W64 :=
  let d := c.desc
  .ofNat 64 (row + 2 ^ 6 + 2 ^ 7 * (match c.ins with
      | .streamt .. => 1
      | _ => 0) + 2 ^ 8 * d.acc0 + 2 ^ 14 * (d.m - 1) + 2 ^ 20 * (c.pc % 2 ^ 15) + 2 ^ 35 * b2n auto)

/-- R252: row `row` and the later rows never enter; CODEBOOK 0x01 is reported to the issuing context. -/
def State.stopStream (s : State) (t : Nat) (c : ECmd) (row info1 : Nat) : State :=
  let s := s.modTile t (fun x => { x with arr := putE x.arr { c with stopped := true, prog := row, expand := 0 } })
  s.modCtx t c.hw (fun x =>
    { x.report s.now c.seq (some c.pc) ⟨5, 1, slA, info1, row⟩ with rstpt := rstptOf c row false })

/-- What a row contributes once it is sampled: forward it, and let its sums land (R253). -/
def State.enterRow (s : State) (t : Nat) (c : ECmd) (r : RowIn) (row : Nat) (bytes : List Byte) : State :=
  let d := c.desc
  let x := s.tile t
  let sums := (List.range d.p).foldl (fun acc q => r.pass x row q acc) c.sums
  let s := s.modTile t (fun x => { x with arr := putE x.arr { c with prog := row + 1, sums := sums } })
  let f := (s.ctx t c.hw).fieldNum
  let s := if d.fwd = 0 then s else s.sendBeats t f (d.fwd - 1) (s.cmdNow t c + 2) d.a bytes
  (List.range d.p).foldl (fun s q =>
    s.at none (s.now + q + 265) phLand (.accumulatorLanding (.ofNat 8 t) c.id row q 0)) s

/-- STREAM_ROW_ADMIT (R247, R252): at T + rp row r is sampled, tested and entered; then the next row is due. -/
def execStreamRowAdmit (tile : BitVec 8) (id : Nat) (row : Nat) (s : State) : Out3 :=
  let t := tile.toNat
  match findE (s.tile t).arr id with
  | none => .next s
  | some c =>
    let d := c.desc
    if c.stopped || decide (d.m ≤ row) then .next s
    else
      let s := if row + 1 < d.m then
          s.at (s.cmdClk t c) (c.t + (row + 1) * d.p) phRow (.streamRowAdmit tile id (row + 1))
        else s
      let f := (s.ctx t c.hw).fieldNum
      let skip := s.modTile t (fun x => { x with arr := putE x.arr { c with prog := row + 1 } })
      if !bitAt ((c.masks[0]?).getD 0) row then .next skip
      else
        let (bytes, s) : Option (List Byte) × State :=
          if d.src = 0 then
            let (bs, s) := s.spSample t (s.field f).member true (c.issue == s.cmdNow t c) (linesFrom (d.line + 8 * d.a * row) (8 * d.a))
            (some bs, s)
          else
            match arrivedRow (s.tile t).beats f (d.src - 1) (s.cmdNow t c) with
            | some bs => let (bs, s) := s.rowBytes (128 * d.a) bs; (some bs, s)
            | none => (none, s)
        match bytes with
        | none => .next skip
        | some bs =>
          let x := s.tile t
          let (b, p) := (c.bound[0]?).getD (0, 0)
          let idx := (List.range d.a).map (fun ta => (List.range 256).map (rowIdx d.a bs ta))
          let acts := (numbered 0 idx).map (fun (ta, l) => l.map (fun i => termOf ((x.bank b).entry p (16 * ta + i)).toNat))
          let r : RowIn := ⟨(match c.ins with
              | .streamt .. => true
              | _ => false), d, (c.masks[1]?).getD 0, (c.masks[2]?).getD 0, idx, acts⟩
          match r.fault x with
          | some info => .next (s.stopStream t c row info)
          | none => .next (s.enterRow t c r row bs)

/-- ACCUMULATOR_LANDING (R253): the sum of pass q lands in the entry of one lane; the next lane follows a cycle later. -/
def execAccumulatorLanding (tile : BitVec 8) (id : Nat) (row pass lane : Nat) (s : State) : Out3 :=
  let t := tile.toNat
  match findE (s.tile t).arr id with
  | none => .next s
  | some c =>
    let d := c.desc
    let v := c.sums.rd 0 ((row * d.p + pass) * 256 + lane)
    let k := 256 * (d.acc0 + row) + lane
    let s := s.modTile t (fun x => { x with acc := x.acc.wr 0 k (accAdd (x.acc.rd 0 k) (v % 2 ^ 48 : Nat) (bitAt v 48)) })
    .next (if lane < 255 then s.at none (s.now + 1) phLand (.accumulatorLanding tile id row pass (lane + 1)) else s)

/-! ## DRAIN (R449, R450) -/

/-- The view type a conversion needs (R259). -/
def drainType (cv : Nat) : Nat :=
  match cv with
  | 0 => 0
  | 1 => 1
  | _ => 2

/-- The bytes a DRAIN spans from BASE. -/
def drainSpan (cv ty : Nat) : Nat := if cv = 3 then 8192 else footprint ty

def chkDrain (i : Instr) (g : Guard) (d e0 : BitVec 6) (l0 : BitVec 4) (cv sc : BitVec 2) (turn : Bool) (tm : Timing)
    (s : State) : Option Trap :=
  let v := s.cc.vreg d.toNat
  let (e, n) := drainEntries e0.toNat turn v
  let lanes := (if turn then vRows v else vCols v) + 1
  let t := s.estart tm
  s.achk g (Instr.rangeTrap i slA) (s.startTrap slA tm) none
    (allTraps [
      s.viewCheckSpan slA d.toNat (drainSpan cv.toNat (vType v)),
      (if vType v == drainType cv.toNat && decide (e + n ≤ 64) && decide (16 * l0.toNat + lanes ≤ 256) then none
        else some (illegal5 slA)),
      (if sc.toNat < 2 then s.planeTrap sc.toNat else none),
      (if s.cc.sys && s.cfrozen then none else s.entryTrap slA e n),
      lateTrap slA t s.enow,
      s.conflict slA 2 t (pcsOf (fillingAt (s.peers s.ct.arr) t.toNat e n)),
      boundTrap s slA t s.ct.arr])

def execDrain (g : Guard) (d e0 : BitVec 6) (l0 : BitVec 4) (q : BitVec 6) (cv sc : BitVec 2) (turn sat : Bool) (tm : Timing)
    (s : State) : Out3 :=
  s.slot g (chkDrain (.drain g d e0 l0 q cv sc turn sat tm) g d e0 l0 cv sc turn tm s) (fun s =>
    let t := (s.estart tm).toNat
    let c := { s.newCmd (.drain g d e0 l0 q cv sc turn sat tm) t t with views := [s.cc.vreg d.toNat] }
    s.acceptArr c (fun s => (s.startAt .array t c.id).at s.eclk (t + 16) phLand (.drainWrite (.ofNat 8 s.cur.tile) c.id)))

/-- One accumulator value under a band scale, converted (R240): the element's bits and flags. -/
def drainValue (a : Int) (q : Nat) (scale : Option Nat) (cv : Nat) (sat : Bool) : Nat × BitVec 7 :=
  let sc : Fv := match scale with
    | some b => bf16.value b
    | none => Fv.one
  let (v, f) : Fv × BitVec 7 :=
    if a = 0 then
      (match sc with
      | .nan => (.nan, 0)
      | .inf _ => (.nan, flNV)
      | .num .. => (Fv.zero false, 0))
    else Fv.mul (.num (decide (a < 0)) a.natAbs (-(q : Int)) false) sc
  if cv = 2 then
    let (x, g) := roundInt 32 v
    (wrap 32 x, f ||| g)
  else
    let (x, g) := (if cv = 0 then fp32 else bf16).round sat v
    (x, f ||| g)

/-- What a DRAIN samples at T: the cells it will write, and its flags (R258, R450). -/
def drainSample (t : Tile) (v : W64) (e0 l0 q cv sc : Nat) (turn sat raw : Bool) : List MaskedByte × BitVec 7 :=
  (activeElems v).foldl (fun (acc : List MaskedByte × BitVec 7) (i, j) =>
    let e := if turn then e0 + j else e0 + i
    let l := if turn then l0 + i else l0 + j
    let x := t.accEntry e l
    let a := asSigned 48 x
    let range := flagIf (bitAt x 48) flRANGE
    if cv = 3 then
      let w := if raw then x % 2 ^ 49 else wrap 64 a
      (acc.1 ++ (numbered (vBase v + 8 * (64 * i + j)) (leBytes 8 w)).map (fun p => ⟨p.1, 255, p.2⟩), acc.2 ||| range)
    else
      let s := if sc < 2 then some (t.bandScale sc (l / 64)).toNat else none
      let (y, f) := drainValue a q s cv sat
      (acc.1 ++ elemCells v i j y, acc.2 ||| f ||| range)) ([], 0)

/-- DRAIN_WRITE (R450): the tile and its flags land at T + 16, as a result of the issuing bundle. -/
def execDrainWrite (tile : BitVec 8) (id : Nat) (s : State) : Out3 :=
  let t := tile.toNat
  match findE (s.tile t).arr id with
  | none => .next s
  | some c =>
    let (x, y) := putCells c.sysw false c.cells (s.ctx t c.hw, s.tile t)
    .next ((s.setCtx t c.hw (orFlags x (.ofNat 7 c.status))).setTile t { y with arr := dropE y.arr id })

/-! ## ACLR (R451) -/

def chkAclr (g : Guard) (e0 nm1 : BitVec 6) (s : State) : Option Trap :=
  let t : Nat := s.enow + 2
  s.achk g (Instr.rangeTrap (.aclr g e0 nm1) slA) none none
    (allTraps [
      s.entryTrap slA e0.toNat (nm1.toNat + 1),
      s.conflict slA 3 t (pcsOf (fillingAt (s.peers s.ct.arr) t e0.toNat (nm1.toNat + 1))),
      boundTrap s slA t s.ct.arr])

def execAclr (g : Guard) (e0 nm1 : BitVec 6) (s : State) : Out3 :=
  s.slot g (chkAclr g e0 nm1 s) (fun s =>
    let t := s.enow + 2
    let c := s.newCmd (.aclr g e0 nm1) t t
    s.acceptArr c (fun s => s.at s.eclk t phLand (.aclrWrite (.ofNat 8 s.cur.tile) c.id)))

/-- ACLR_WRITE (R451): the entries of all 256 lanes and their range flags become zero. -/
def execAclrWrite (tile : BitVec 8) (id : Nat) (s : State) : Out3 :=
  let t := s.tile tile.toNat
  match findE t.arr id with
  | none => .next s
  | some c =>
    let (e, n) := c.touches.getD (0, 0)
    .next (s.setTile tile.toNat { t with
      acc := t.acc.filter (fun x => decide (x.1 < 256 * e) || decide (256 * (e + n) ≤ x.1)), arr := dropE t.arr id })

/-! ## The start of an array command (R206) -/

/-- At T: WLOAD and WLOADG sample and expand, DRAIN samples, a stream samples its masks and is ready for its next row. -/
def State.startArray (s : State) (t id : Nat) : State :=
  let x := s.tile t
  match findE x.arr id with
  | none => s
  | some c =>
    let cx := s.ctx t c.hw
    let put (c : ECmd) : State := s.setTile t { x with arr := putE x.arr { c with started := true } }
    let plane (n : PlaneNew) : State := put { c with sums := numbered 0 n.cells, prog := n.from_, masks := n.scales }
    match c.ins with
    | .wload _ slot _ _ term _ =>
      let (b, p) := (c.bound[0]?).getD (0, 0)
      plane (expandSlot x.weight slot.toNat ((x.bank b).plane p) term.toNat)
    | .wloadg _ _ h _ term ob _ => plane (expandViews cx x c h.toNat term.toNat ob)
    | .wloadgImg _ _ h _ _ =>
      let base := vBase (c.views.headD 0)
      plane (expandImage ((List.range quarterBytes).map (fun k => regByte cx x c.sysw (base + k))) h.toNat)
    | .drain _ _ e0 l0 q cv sc turn sat _ =>
      let (cells, fl) := drainSample x (c.views.headD 0) e0.toNat (16 * l0.toNat) q.toNat cv.toNat sc.toNat turn sat c.dclk
      put { c with cells := cells, status := fl.toNat }
    | _ =>
      let m (k n : Nat) : Nat := maskBits cx x c k n
      (put { c with masks := [m 0 64, m 1 256, m 2 256] }).at (s.cmdClk t c) (c.t + c.prog * c.desc.p) phRow
        (.streamRowAdmit (.ofNat 8 t) id c.prog)

/-! ## WSTORE (R452) -/

def chkWstore (g : Guard) (v : BitVec 6) (r : BitVec 5) (s : State) : Option Trap :=
  let w := s.cc.vreg v.toNat
  let x := (s.cc.sreg r.toNat).toNat
  s.achk g none none (s.viewCheck slA v.toNat)
    (allTraps [
      (if vType w == 8 then some (illegal5 slA) else none),
      (if decide (2 ^ 25 ≤ x) || x % 16 != 0 || decide (2 ^ 25 < x + footprint (vType w)) then some (alignView slA x) else none)])

def execWstore (g : Guard) (v : BitVec 6) (r : BitVec 5) (e : BitVec 4) (s : State) : Out3 :=
  s.slot g (chkWstore g v r s) (fun s =>
    let w := s.cc.vreg v.toNat
    let q := readTile s.cc s.ct w
    let dst := (s.cc.sreg r.toNat).toNat % 2 ^ 25
    let cells := (activeElems w).flatMap (fun p => (elemCells w p.1 p.2 (q.elem p.1 p.2)).map
      (fun m => { m with addr := m.addr - vBase w + dst }))
    s.async { s.newAsync (.wstore g v r e) (some e.toNat) with cells := cells } .wstoreComplete)

/-- The quarter image of a plane (R445). -/
def quarterImage (t : Tile) (p h : Nat) : List Byte :=
  (List.range 16384).flatMap (fun k => leBytes 2 (t.cell p (64 * h + k / 256) (k % 256)).toNat)
    ++ (List.range 2048).map (fun k => t.cellOff p (64 * h + 8 * (k / 256)) (k % 256))
    ++ (List.range 4).flatMap (fun g => leBytes 2 (t.bandScale p g).toNat)

def fullCells (base : Nat) (bs : List Byte) : List MaskedByte := (numbered base bs).map (fun p => ⟨p.1, 255, p.2⟩)

def chkWstorePlane (g : Guard) (v : BitVec 6) (pl : Bool) (s : State) : Option Trap :=
  let base := vBase (s.cc.vreg v.toNat)
  s.achk g (s.sysTrap slA 8) none none
    (allTraps [s.viewCheck slA v.toNat, s.imageCheck slA base quarterBytes, s.planeTrap (b2n pl), s.imageRange slA base quarterBytes,
      s.aliasBusy slA base quarterBytes])

def execWstorePlane (g : Guard) (v : BitVec 6) (h : BitVec 2) (pl : Bool) (e : BitVec 4) (s : State) : Out3 :=
  s.slot g (chkWstorePlane g v pl s) (fun s =>
    s.async { s.newAsync (.wstorePlane g v h pl e) (some e.toNat) with
      cells := fullCells (vBase (s.cc.vreg v.toNat)) (quarterImage s.ct (b2n pl) h.toNat) } .wstoreComplete)

/-- Write masked bytes of the weight die of a place. -/
def State.putWeight (s : State) (f rel : Nat) (ws : List MaskedByte) : State :=
  s.modPlace f rel (fun c t =>
    (c, { t with weight := ws.foldl (fun m w => m.setByte w.addr (mergeByte (m.byte w.addr) w.mask w.val)) t.weight }))

/-- Write register-space bytes of a command; system code's alias writes during a freeze take bit 48 too (R332). -/
def State.putRegs (s : State) (c : Cmd) (ws : List MaskedByte) : State :=
  s.modCmdPlace c (fun x t => putCells c.sysw (c.sys && !(s.field c.field).ticking) ws (x, t))

/-- The byte of the weight die is one that a WSTORE, or a CPY, has still to write. -/
def Cmd.weightLeft (c : Cmd) (a : Nat) : Bool :=
  match c.ins with
  | .wstore .. => c.cells.any (fun y => y.addr == a)
  | .cpy _ _ _ dsp _ _ _ => dsp == 2 && (c.cells.any (fun y => y.addr == a) || c.shape.writesFrom (128 * c.prog) a 1)
  | _ => false

/-- Where an accepted LBCST writes: a tile, its first byte there, and how many (R73, R473); the root writes nothing. -/
def State.bcstWrites (s : State) (c : ECmd) : Option (Nat × Nat × Nat) :=
  let w := ((c.vals[4]?).getD 0).toNat
  match c.ins with
  | .lbcst .. =>
    if c.stopped || fld w 0 16 == s.pkgNum then none else some (fld w 48 16, 65536 * fld w 16 16, 65536 * fld w 32 16)
  | _ => none

/-- An earlier class-W command of the same context still has this byte to write: such writes land in issue order (R314, R452). -/
def State.weightBefore (s : State) (c : Cmd) (a : Nat) : Bool :=
  s.cmds.any (fun x => decide (x.seq < c.seq) && x.field == c.field && x.rel == c.rel && x.weightLeft a)
    || (s.tile c.tile).link.any (fun x => decide (x.seq < c.seq) && x.hw == c.hw && (match s.bcstWrites x with
      | some (t, lo, n) => t == c.tile && decide (lo ≤ a) && decide (a < lo + n)
      | none => false))

def State.weightClash (s : State) (c : Cmd) (m : MaskedByte) : Bool := s.weightBefore c m.addr

/-- WSTORE_COMPLETE (R452): the next unit of a WSTORE lands; with the last one it counts its event. -/
def execWstoreComplete (id : Nat) (s : State) : Out3 :=
  match s.cmd id with
  | none => .next s
  | some c =>
    match c.ins with
    | .wstore .. =>
      .next (s.progress c (s.weightClash c) (fun s ws => s.putWeight c.field c.rel ws) (.wstoreComplete id))
    | _ => .next (s.progress c (fun _ => false) (fun s ws => s.putRegs c ws) (.wstoreComplete id))

/-! ## Codebook instructions (R453 to R455) -/

/-- A CBLD to bank b that stands in an open catch record (R265). -/
def Ctx.caughtCbld (c : Ctx) (b : Nat) : Bool :=
  let n0 := if c.rec0 then min 192 (c.catchMem.num 0 4) else 0
  let n1 := if c.rec1 then min 192 (c.catchMem.num 0x200 4) else 0
  (List.range (n0 + n1)).any (fun k =>
    let d := descAt c.catchMem (0x400 + 16 * k)
    d.kind == 8 && d.target % 16 == b)

/-- The PC of a CBLD to bank b that has issued and not landed, or is caught, in a context of the field (R265). -/
def State.pendingCbld (s : State) (b : Nat) : List Nat :=
  (List.range 4).filterMap (fun h =>
    let c := s.ctx s.cur.tile h
    let flying := c.inflight.any (fun r => match r.dest with
      | .shadowEntries k _ _ => k == b
      | .bankImage k _ => k == b
      | _ => false)
    if c.field == some s.cf && (flying || (!(s.cc.sys && s.cfrozen) && c.caughtCbld b)) then some (c.lastPc.rd 0 b) else none)

/-- Accepted commands bound to a physical plane of bank b, of those in `ps`, with an expansion at or after issue + 8, the landing of a
CBLD (R265); the cycles of a command of a field that stands still do not come meanwhile. -/
def State.boundTo (s : State) (b : Nat) (ps : List Nat) : List ECmd :=
  (s.ct.arr ++ s.ct.link).filter (fun c =>
    (!s.cgrouped || c.hw / 2 == s.cmember)
      && decide (s.cmdNow s.cur.tile c + (if c.dclk || !s.cfrozen then 8 else 0) ≤ c.expand)
      && c.bound.any (fun x => x.1 == b && ps.contains x.2))

def chkCbld (i : Instr) (g : Guard) (cb : BitVec 4) (cntm1 : Byte) (v : BitVec 6) (s : State) : Option Trap :=
  let b := cb.toNat
  s.achk g (Instr.rangeTrap i slA) none (s.viewCheck slA v.toNat)
    (allTraps [
      (if footprint (vType (s.cc.vreg v.toNat)) < 16 * (cntm1.toNat + 1) then some (illegal5 slA) else none),
      s.bankTrap b,
      s.conflict slA 3 (s.enow + 8 : Nat) (pcsOf (s.boundTo b [1 - (s.ct.bank b).act]))])

def State.markCbld (s : State) (b : Nat) : State := s.modCC (fun c => { c with lastPc := c.lastPc.wr 0 b s.cur.pc })

def execCbld (g : Guard) (cb : BitVec 4) (first cntm1 : Byte) (v : BitVec 6) (s : State) : Out3 :=
  s.slot g (chkCbld (.cbld g cb first cntm1 v) g cb cntm1 v s) (fun s =>
    let bs := regBytes s.cc s.ct (vBase (s.cc.vreg v.toNat)) (16 * (cntm1.toNat + 1))
    (s.markCbld cb.toNat).result 8 phLand slA 0 (.shadowEntries cb.toNat first.toNat (mod128 bs)))

/-- Bytes of a bank image (R455). -/
def bankBytes : Nat := 8208

def bankImage (b : Bank) : List Byte :=
  (List.range 256).flatMap (fun e => leBytes 16 (b.entry 0 e).toNat)
    ++ (List.range 256).flatMap (fun e => leBytes 16 (b.entry 1 e).toNat)
    ++ leBytes 1 b.gen ++ leBytes 1 b.act ++ List.replicate 14 0

def chkCbldRestore (g : Guard) (cb : BitVec 4) (v : BitVec 6) (s : State) : Option Trap :=
  let b := cb.toNat
  let base := vBase (s.cc.vreg v.toNat)
  let img := regBytes s.cc s.ct base bankBytes
  s.achk g (s.sysTrap slA 9) (if decide (1 < numAt img 8193 1) || numAt img 8194 14 != 0 then some (illegal5 slA) else none)
    (s.viewCheck slA v.toNat)
    (allTraps [
      s.imageCheck slA base bankBytes,
      s.bankTrap b,
      s.imageRange slA base bankBytes,
      s.conflict slA 3 (s.enow + 8 : Nat) (pcsOf (s.boundTo b [0, 1]) ++ s.pendingCbld b)])

def execCbldRestore (g : Guard) (cb : BitVec 4) (v : BitVec 6) (s : State) : Out3 :=
  s.slot g (chkCbldRestore g cb v s) (fun s =>
    (s.markCbld cb.toNat).result 8 phLand slA 0
      (.bankImage cb.toNat (regBytes s.cc s.ct (vBase (s.cc.vreg v.toNat)) bankBytes)))

def chkCbflip (g : Guard) (cb : BitVec 4) (s : State) : Option Trap :=
  s.achk g none none none (orTrap (s.bankTrap cb.toNat) (s.conflict slA 3 (s.enow : Nat) (s.pendingCbld cb.toNat)))

/-- CBFLIP (R454): in force for every bundle from the next cycle. -/
def execCbflip (g : Guard) (cb : BitVec 4) (s : State) : Out3 :=
  s.slot g (chkCbflip g cb s) (fun s => s.result 1 phLand slA 0 (.flip cb.toNat))

def chkCbst (g : Guard) (cb : BitVec 4) (v : BitVec 6) (s : State) : Option Trap :=
  let base := vBase (s.cc.vreg v.toNat)
  s.achk g none none none
    (allTraps [s.viewCheck slA v.toNat, s.imageCheck slA base bankBytes, s.bankTrap cb.toNat,
      s.imageRange slA base bankBytes, s.aliasBusy slA base bankBytes])

def execCbst (g : Guard) (cb : BitVec 4) (v : BitVec 6) (e : BitVec 4) (s : State) : Out3 :=
  s.slot g (chkCbst g cb v s) (fun s =>
    s.async { s.newAsync (.cbst g cb v e) (some e.toNat) with
      cells := fullCells (vBase (s.cc.vreg v.toNat)) (bankImage (s.ct.bank cb.toNat)) } .cbstComplete)

/-- CBST_COMPLETE (R455): the next unit of the bank image lands; with the last one the event is counted. -/
def execCbstComplete (id : Nat) (s : State) : Out3 :=
  match s.cmd id with
  | none => .next s
  | some c => .next (s.progress c (fun _ => false) (fun s ws => s.putRegs c ws) (.cbstComplete id))

end Sys2Proof.Machine
end

