-- ==== Sys2Proof/Machine/Global.lean ====
section
/-! DEFINITION. Global memory: addresses and translation (R288 to R295), the fault units (R298 to R300), L2 lines and their
compression (R280 to R283), pending versions and their commit (R301 to R309). -/

namespace Sys2Proof.Machine

open Sys2Proof

/-! ## Packages and addresses (R53, R288, R289) -/

/-- The product of the torus extents. -/
def State.pkgCount (s : State) : Nat := s.extent 0 * s.extent 1 * s.extent 2

def vPkg (a : Nat) : Nat := fld a 50 10
def vDie (a : Nat) : Nat := fld a 48 2
def vOff (a : Nat) : Nat := a % 2 ^ 48

/-- The global virtual address of an offset of a die of this package. -/
def State.gva (s : State) (die off : Nat) : Nat := 2 ^ 50 * s.pkgNum + 2 ^ 48 * die + off

def tableWindow : Nat := 0xFFFFF0000000
def saveWindow : Nat := 0xFFFEF0000000
def GiB : Nat := 2 ^ 30

/-- The pseudo-channel of the package that holds physical byte P of a die (R74, R288). -/
def pchOf (die p : Nat) : Nat := 64 * (2 * die + p / (48 * GiB)) + p % (48 * GiB) / 2 ^ 21 % 64

/-- The row of all banks that holds byte P, the bank, and the byte within the row (R75, R288). -/
def rowOf (p : Nat) : Nat := 128 * (p % (48 * GiB) / 2 ^ 21 / 64) + p % 2 ^ 21 / 512 / 32
def bankOf (p : Nat) : Nat := p % 2 ^ 21 / 32 % 16

/-- A byte of a reserved region: the table region or a save pool (R289). -/
def reservedByte (p : Nat) : Bool :=
  decide (p < 256 * 2 ^ 20) || (decide (46 * GiB ≤ p) && decide (p < 48 * GiB))
    || (decide (94 * GiB ≤ p) && decide (p < 96 * GiB))

def State.seqr (s : State) (pch : Nat) : Seqr := s.seqrs.rd Seqr.idle pch
def State.modSeqr (s : State) (pch : Nat) (f : Seqr → Seqr) : State :=
  { s with seqrs := s.seqrs.insert pch (f (s.seqr pch)) }

/-! ## L2 lines (R281 to R283) -/

/-- The W and D of a base-and-delta code. -/
def bdShape (code : Nat) : Option (Nat × Nat) :=
  match code with
  | 2 => some (8, 1)
  | 3 => some (4, 1)
  | 4 => some (8, 2)
  | 5 => some (4, 2)
  | _ => none

/-- The 128 bytes that an encoding stands for. -/
def decodeLine (code : Nat) (data : List Byte) : List Byte :=
  match bdShape code with
  | some (w, d) =>
    (List.range (128 / w)).flatMap (fun i => leBytes w (wrap (8 * w) ((numAt data 0 w : Int) + asSigned (8 * d) (numAt data (w + d * i) d))))
  | none =>
    if code = 0 then List.replicate 128 0
    else if code = 1 then (List.range 32).flatMap (fun _ => bytesAt data 0 4)
    else bytesAt data 0 128

/-- The sectors of 32 bytes that an encoding takes (R281). -/
def sectorsOf (code : Nat) : Nat :=
  match code with
  | 0 => 0
  | 1 => 1
  | 2 => 1
  | 3 => 2
  | 4 => 2
  | 5 => 3
  | _ => 4

/-- The data an encoding holds for a line, padded with zeros to whole sectors. -/
def codeData (code : Nat) (bs : List Byte) : List Byte :=
  bytesAt (match bdShape code with
  | some (w, d) =>
    leBytes w (numAt bs 0 w) ++ (List.range (128 / w)).flatMap (fun i =>
      leBytes d (wrap (8 * d) ((numAt bs (w * i) w : Int) - numAt bs 0 w)))
  | none => if code = 0 then [] else if code = 1 then bytesAt bs 0 4 else bytesAt bs 0 128) 0 (32 * sectorsOf code)

/-- The first encoding in code order that represents every byte exactly (R282). -/
def encodeLine (bs : List Byte) : Nat × List Byte :=
  match (List.range 6).find? (fun c => decodeLine c (codeData c bs) == bs) with
  | some c => (c, codeData c bs)
  | none => (6, bytesAt bs 0 128)

/-- The bytes of line ln that HBM4 lacks, over its own. -/
def Die.behind (d : Die) (ln : Nat) : List Byte :=
  (d.late.filter (fun b => b.line == ln)).foldl (fun l b => l.set b.off b.val) (d.hbm.bytes (128 * ln) 128)

/-- The 128 bytes of line ln of a die, as every reader of committed bytes sees them. -/
def Die.line (d : Die) (ln : Nat) : List Byte :=
  match d.l2.find ln with
  | some l => decodeLine l.code l.data
  | none => d.behind ln

def Die.gbytes (d : Die) (p n : Nat) : List Byte :=
  (List.range n).map (fun k => ((d.line ((p + k) / 128))[(p + k) % 128]?).getD 0)

/-- Write a dirty line to HBM4 and let the slice's copy go (R77, R283).  Bytes of core-path stores, which a bank-unit call sees only
after a FENCE (R316), stay behind. -/
def Die.flushLine (d : Die) (ln : Nat) : Die :=
  match d.l2.find ln with
  | none => d
  | some l =>
    let d := { d with l2 := d.l2.remove ln }
    if !l.dirty then d
    else
      let stays (o : Nat) : Bool := d.late.any (fun b => b.line == ln && b.off == o && b.cls == 0)
      { d with
        hbm := d.hbm.setCells (((numbered 0 (decodeLine l.code l.data)).filter (fun c => !stays c.1)).map (fun c => (128 * ln + c.1, c.2))),
        late := d.late.filter (fun b => !(b.line == ln && !stays b.off)) }

/-- Bytes reach HBM4 itself, over whatever was on its way to them. -/
def Die.setDram (d : Die) (cells : List (Nat × Byte)) : Die :=
  { d with
    hbm := d.hbm.setCells cells,
    late := d.late.filter (fun b => !(cells.any (fun c => c.1 == 128 * b.line + b.off))) }

/-- Bytes that are behind, as `p` selects them, reach HBM4 in their order, and the slice's copies of their lines go (R315). -/
def Die.drain (d : Die) (p : Late → Bool) : Die :=
  (distinct ((d.late.filter p).map (·.line))).foldl (fun d ln => d.flushLine ln)
    (go d.late { d with late := [] })
where
  go : List Late → Die → Die
  | [], d => d
  | b :: r, d => go r (if p b then d.setDram [(128 * b.line + b.off, b.val)] else { d with late := d.late ++ [b] })

/-- The home slice of a line (R280). -/
def sliceOf (ln : Nat) : Nat :=
  let p := 128 * ln
  Nat.xor (fld p 9 6) (Nat.xor (fld p 15 6) (fld p 21 6))

/-! ## Pending versions (R304 to R309) -/

def writerOf (f rel : Nat) : Nat := 1024 * f + rel

def domAt : List (DomKey × Domain) → DomKey → Domain
  | [], _ => Domain.zero
  | (k, d) :: r, q => if k = q then d else domAt r q

def State.domain (s : State) (k : DomKey) : Domain := domAt s.doms k
def State.setDomain (s : State) (k : DomKey) (d : Domain) : State :=
  { s with doms := (k, d) :: s.doms.filter (fun x => x.1 != k) }

/-- The versions a slice of a die holds: one per line and domain. -/
def Die.versions (d : Die) (slice : Nat) : List (Nat × DomKey) :=
  (d.pend.filter (fun b => sliceOf b.line == slice)).foldl
    (fun acc b => if acc.contains (b.line, b.dom) then acc else (b.line, b.dom) :: acc) []

/-- A write is not accepted while the line's version for its domain belongs to an earlier phase, or no version is free
(R305). -/
def State.mustWait (s : State) (die ln : Nat) (dom : DomKey) : Bool :=
  let d := s.die die
  let vs := d.versions (sliceOf ln)
  d.pend.any (fun b => b.line == ln && b.dom == dom && b.phase != (s.domain dom).phase)
    || (!vs.contains (ln, dom) && decide (8192 ≤ vs.length))

/-- Accept bytes of a store into the pending version of its line (R304). -/
def State.acceptBytes (s : State) (die ln : Nat) (dom : DomKey) (bs : Bool) (writer seq : Nat) (cells : List (Nat × Byte)) : State :=
  let ph := (s.domain dom).phase
  s.modDie die (fun d => { d with pend := d.pend ++ cells.map (fun c => ⟨ln, dom, ph, c.1, c.2, writer, seq, bs⟩) })

/-- What a context reads of a line at its home slice (R308): its own pending bytes over the committed ones. -/
def Die.readLine (d : Die) (ln writer : Nat) : List Byte :=
  (d.pend.filter (fun b => b.line == ln && b.writer == writer)).foldl (fun l b => l.set b.off b.val) (d.line ln)

/-- The committed bytes of a line without those of some commands: what an access that came before them sees (R308). -/
def Die.lineWithout (d : Die) (ln : Nat) (skip : List Nat) : List Byte :=
  if d.late.any (fun b => b.line == ln && skip.contains b.seq) then
    (d.late.filter (fun b => b.line == ln && !skip.contains b.seq)).foldl (fun l b => l.set b.off b.val) (d.hbm.bytes (128 * ln) 128)
  else d.line ln

/-- The same under the reader's own pending bytes, without those of the same commands. -/
def Die.readWithout (d : Die) (ln writer : Nat) (skip : List Nat) : List Byte :=
  (d.pend.filter (fun b => b.line == ln && b.writer == writer && !skip.contains b.seq)).foldl (fun l b => l.set b.off b.val)
    (d.lineWithout ln skip)

/-- The places of a line that some commands have written. -/
def Die.writtenBy (d : Die) (ln : Nat) (cmds : List Nat) : List Nat :=
  (d.pend.filter (fun b => b.line == ln && cmds.contains b.seq)).map (·.off)
    ++ (d.late.filter (fun b => b.line == ln && cmds.contains b.seq)).map (·.off)

/-! ## Writing a line (R84, R98, R280, R283) -/

/-- The U tags of the rows that a line touches: its four bursts lie in four banks. -/
def lineTags (p : Nat) : List Nat := (List.range 4).map (fun k => bankOf (p + 32 * k) * 49152 + rowOf p)

/-- The controller clears a row's U tag before it serves a standard access to it (R84): an access whose line the slice does not
hold, or one that goes `through` to the DRAM. -/
def State.clearU (s : State) (die ln : Nat) (through : Bool) : State :=
  let p := 128 * ln
  let pch := pchOf die p
  if (s.seqr pch).utags.isEmpty || (!through && ((s.die die).l2.find ln).isSome) then s
  else s.modSeqr pch (fun q => { q with utags := q.utags.filter (fun k => !(lineTags p).contains k) })

/-- A session holds the pseudo-channel of a line. -/
def State.lineHeld (s : State) (die ln : Nat) : Bool := (s.seqr (pchOf die (128 * ln))).session.isSome

/-- A standard access that needs the DRAM waits while a session holds the pseudo-channel (R98). -/
def State.dramBusy (s : State) (die ln : Nat) (through : Bool) : Bool :=
  (through || ((s.die die).l2.find ln).isNone) && s.lineHeld die ln

/-- Bytes of a die that `p` selects reach HBM4, and the slices' copies of their lines go (R315): the rows' check bits are recomputed
(R84). -/
def State.drainDie (s : State) (die : Nat) (p : Late → Bool) : State :=
  let ls := distinct (((s.die die).late.filter p).map (·.line))
  (ls.foldl (fun s ln => s.clearU die ln true) s).modDie die (fun d => d.drain p)

def State.drainDies (s : State) (p : Late → Bool) : State := (List.range 4).foldl (fun s k => s.drainDie k p) s

/-- The lines of a slice of a die but those of superblock `blk`. -/
def Die.otherLines (d : Die) (blk : Nat) : List (Nat × L2Line) :=
  d.l2.filter (fun e => sliceOf e.1 == sliceOf (4 * blk) && e.1 / 4 != blk)

/-- The slice of a superblock has a tag for it, and sectors for n and for the superblock's lines but `ln` (R280). -/
def Die.roomFor (d : Die) (ln n : Nat) : Bool :=
  let others := d.otherLines (ln / 4)
  let own := d.l2.filter (fun e => e.1 / 4 == ln / 4 && e.1 != ln)
  decide ((distinct (others.map (·.1 / 4))).length < 8192)
    && decide (sumNat ((others ++ own).map (fun e => sectorsOf e.2.code)) + n ≤ 65536)

/-- Superblocks of the slice of line ln that can go: those whose dirty lines reach HBM4 now. -/
def State.victims (s : State) (die ln : Nat) : List Nat :=
  let others := (s.die die).otherLines (ln / 4)
  distinct ((others.filter (fun e =>
    others.all (fun x => x.1 / 4 != e.1 / 4 || !x.2.dirty || !s.lineHeld die x.1))).map (·.1 / 4))

/-- Other superblocks go, freely chosen, until the slice has room for line ln in n sectors, or none can go (R283, log entry 29). -/
def State.makeRoom (s : State) (die ln n : Nat) : Nat → State
  | 0 => s
  | fuel + 1 =>
    if (s.die die).roomFor ln n then s
    else
      let (k, s) := s.drawFree
      let vs := s.victims die ln
      match vs[k % vs.length]? with
      | none => s
      | some blk =>
        let lines := (((s.die die).l2.filter (fun e => e.1 / 4 == blk && e.2.dirty)).map (·.1))
        let s := lines.foldl (fun s l => s.clearU die l true) s
        State.makeRoom (s.modDie die (fun d => (List.range 4).foldl (fun d j => d.flushLine (4 * blk + j)) d)) die ln n fuel

/-- The slice takes a line, encoded anew, into room made for it; the answer says whether it has the room (R280, R283). -/
def State.l2Put (s : State) (die ln : Nat) (bs : List Byte) (dirty : Bool) : Bool × State :=
  let (c, data) := encodeLine bs
  let s := s.makeRoom die ln (sectorsOf c) (s.die die).l2.length
  if (s.die die).roomFor ln (sectorsOf c) then (true, s.modDie die (fun d => { d with l2 := d.l2.insert ln ⟨c, data, dirty⟩ })) else (false, s)

/-- A slice gives up its copy of a line.  While a session holds the channel, what HBM4 lacks of it waits in the controller. -/
def Die.spill (d : Die) (ln : Nat) (held : Bool) : Die :=
  match d.l2.find ln with
  | none => d
  | some l =>
    if !l.dirty || !held then d.flushLine ln
    else
      let listed (o : Nat) : Bool := d.late.any (fun b => b.line == ln && b.off == o)
      { d with
        l2 := d.l2.remove ln,
        late := ((numbered 0 (decodeLine l.code l.data)).filter (fun c => !listed c.1)).map (fun c => ⟨ln, c.1, c.2, 3, 0, 0⟩) ++ d.late }

/-- Write committed bytes into a line (R77, R283, R314): (offset, value, writer, command) in order, of a path class.  A line of a
bank-striped page is never dirty: what a core-path store writes there is on its way to HBM4, what the others write has reached
it.  A line that its slice does not hold, in a channel that a session holds, is not fetched; one that finds no room in its slice goes
past it. -/
def State.lineWrite (s : State) (die ln : Nat) (striped : Bool) (cls : Nat) (cells : List (Nat × Byte × Nat × Nat)) : State :=
  let dirty := !striped || ((s.die die).l2.find ln).any (·.dirty)
  let bs := cells.foldl (fun l c => l.set c.1 c.2.1) ((s.die die).line ln)
  let (fits, s) :=
    if s.dramBusy die ln false then (true, s)
    else
      let (ok, s) := (s.clearU die ln (striped && !s.lineHeld die ln)).l2Put die ln bs dirty
      (ok, if ok then s else (s.clearU die ln (!s.lineHeld die ln)).modDie die (fun d => d.spill ln (s.lineHeld die ln)))
  s.modDie die (fun d =>
    if (striped || !fits) && cls != 0 && !s.lineHeld die ln then d.setDram (cells.map (fun c => (128 * ln + c.1, c.2.1)))
    else { d with late := d.late ++ cells.map (fun c => ⟨ln, c.1, c.2.1, cls, c.2.2.1, c.2.2.2⟩) })

/-- Commit the pending bytes that `p` selects, line by line, in order of arrival (R307). -/
def State.commitWhere (s : State) (p : PendByte → Bool) : State :=
  (List.range 4).foldl (fun s k =>
    let go := (s.die k).pend.filter p
    if go.isEmpty then s
    else
      (distinct (go.map (·.line))).foldl (fun s ln =>
        let mine := go.filter (fun b => b.line == ln)
        s.lineWrite k ln (mine.any (·.bs)) 0 (mine.map (fun b => (b.off, b.val, b.writer, b.seq))))
        (s.modDie k (fun d => { d with pend := d.pend.filter (fun b => !p b) }))) s

/-! ## Translation (R289 to R293) -/

/-- Who asks: a context in user or system mode, or a COPY packet or the staging aperture. -/
inductive Who where
  | user | system | packet
deriving DecidableEq, Repr

def whoOf (sys : Bool) : Who := if sys then .system else .user

/-- The last test of R292 on the 2 MiB frame that holds byte P. -/
def State.frameOk (s : State) (die p : Nat) : Bool :=
  let f := p / 2 ^ 21 * 2 ^ 21
  decide (p < 96 * GiB) && !reservedByte f && !(s.seqr (pchOf die f)).framesOut

/-- Entries a die's TLB holds. -/
def tlbSize : Nat := 4096

/-- The index bits of a level: their first bit, how many, and the size of a leaf there (R290). -/
def levelBits (level : Nat) : Nat × Nat × Nat :=
  match level with
  | 0 => (16, 5, 16)
  | 1 => (21, 10, 21)
  | 2 => (31, 9, 31)
  | _ => (40, 8, 0)

/-- The table entry that the TLB is to hold, in the place of one freely chosen when it is full (R293). -/
def State.tlbTake (s : State) (die : Nat) (e : TlbEntry) : State :=
  if (s.die die).tlb.contains e then s
  else if (s.die die).tlb.length < tlbSize then s.modDie die (fun d => { d with tlb := e :: d.tlb })
  else
    let (k, s) := s.drawFree
    s.modDie die (fun d => { d with tlb := e :: d.tlb.eraseIdx (k % tlbSize) })

/-- A table entry at its use: what the TLB holds of it, or what the table holds now, as the hardware may use either (R293); what is
used is held from then on.  The read of the table is a standard access (R84, R98): none while the TLB holds nothing of the entry and a
session holds the table's channel, unless `pass` lets its accesses by. -/
def State.tableEntry (s : State) (pass : Nat → Bool) (die off level table : Nat) : Option Nat × State :=
  let (lo, n, _) := levelBits level
  let p := table + 8 * fld off lo n
  let fresh := leNat ((s.die die).gbytes p 8)
  let mine (e : TlbEntry) : Bool := e.level == level && e.index == off / 2 ^ lo
  let held := ((s.die die).tlb.filter mine).map (·.value)
  let busy := s.dramBusy die (p / 128) false && !pass (pchOf die p)
  let choice := if busy then held else if !held.isEmpty && held.all (· == fresh) then [fresh] else fresh :: held
  let (k, s) : Nat × State := if choice.length ≤ 1 then (0, s) else s.drawFree
  match choice[k % choice.length]? with
  | none => (none, s)
  | some v =>
    let s := if held.contains v then s else s.clearU die (p / 128) false
    (some v, s.tlbTake die ⟨level, off / 2 ^ lo, v⟩)

/-- The 64 KiB page of a leaf of 2^size bytes. -/
def State.leafOf (s : State) (die off e size : Nat) : Option Leaf :=
  let p := fld e 16 32 * 2 ^ 16 / 2 ^ size * 2 ^ size + off % 2 ^ size / 2 ^ 16 * 2 ^ 16
  if bitAt e 0 && s.frameOk die p then some ⟨p, bitAt e 1, bitAt e 2, size == 21 && bitAt e 4⟩ else none

/-- What a walk comes to: it waits for a channel, finds no mapping, or a page (R290 to R292). -/
inductive Walk where
  | busy | none
  | leaf (l : Leaf)
deriving DecidableEq, Repr

def Walk.of : Option Leaf → Walk
  | .none => .none
  | some l => .leaf l

/-- The walk of an offset from the table at P of a level (R290 to R292). -/
def State.walkFrom (s : State) (pass : Nat → Bool) (die off : Nat) : Nat → Nat → Walk × State
  | 0, table =>
    match s.tableEntry pass die off 0 table with
    | (none, s) => (.busy, s)
    | (some e, s) => (.of (s.leafOf die off e 16), s)
  | level + 1, table =>
    match s.tableEntry pass die off (level + 1) table with
    | (none, s) => (.busy, s)
    | (some e, s) =>
      if !bitAt e 0 then (.none, s)
      else if bitAt e 3 then (if level = 2 then .none else .of (s.leafOf die off e (levelBits (level + 1)).2.2), s)
      else
        let next := fld e 8 40 * 256
        if 256 * 2 ^ 20 ≤ next then (.none, s) else State.walkFrom s pass die off level next

/-- The walk of an offset of a die, from the level-3 table at P = 0. -/
def State.lookup (s : State) (pass : Nat → Bool) (die off : Nat) : Walk × State := s.walkFrom pass die off 3 0

/-- Where a global byte is: `busy` while its translation waits for a channel. -/
inductive Xl where
  | viol | absent | remote | busy
  | home (die p : Nat) (w u bs : Bool)
deriving DecidableEq, Repr

/-- No session lets an access of another by. -/
def noPass : Nat → Bool := fun _ => false

/-- Where a global byte is for an accessor (R288, R289, R294, R295); `pass` says whose sessions hold up no walk of it. -/
def State.translate (s : State) (who : Who) (write : Bool) (a : Nat) (pass : Nat → Bool := noPass) : Xl × State :=
  let off := vOff a
  if decide (2 ^ 60 ≤ a) || decide (s.pkgCount ≤ vPkg a) then (.viol, s)
  else if tableWindow ≤ off then
    (if who = .user then .viol else if vPkg a = s.pkgNum then .home (vDie a) (off - tableWindow) true true false else .remote, s)
  else if saveWindow ≤ off then
    let o := off - saveWindow
    (if who ≠ .system then .viol
      else if vPkg a = s.pkgNum then
        .home (vDie a) (if o < 2 * GiB then 46 * GiB + o else 94 * GiB + (o - 2 * GiB)) true true false
      else .remote, s)
  else if vPkg a ≠ s.pkgNum then (.remote, s)
  else
    match s.lookup pass (vDie a) off with
    | (.busy, s) => (.busy, s)
    | (.none, s) => (.absent, s)
    | (.leaf l, s) =>
      (if (who == .user && !l.u) || (write && !l.w) then .viol
        else .home (vDie a) (l.p + off % 65536) l.w l.u l.bs, s)

/-! ## The fault unit (R298 to R300) -/

/-- The distinct pages that a fault unit holds requests of. -/
def Die.heldPages (d : Die) : List Nat := distinct ((d.closed ++ d.open_.toList).flatMap (fun b => b.reqs.map (·.page)))

def Batch.size (b : Batch) : Nat := sumNat (b.reqs.map (·.count))

def PageReq.same (a b : PageReq) : Bool := a.field == b.field && a.page == b.page

/-- A further request merged into a held one. -/
def PageReq.add (a b : PageReq) : PageReq :=
  { a with write := a.write || b.write, lost := a.lost || b.lost, hint := a.hint && b.hint, count := a.count + b.count }

def addReq (r : PageReq) : List PageReq → Option (List PageReq)
  | [] => none
  | x :: xs => if x.same r then some (x.add r :: xs) else (addReq r xs).map (x :: ·)

def addClosed (r : PageReq) : List Batch → Option (List Batch)
  | [] => none
  | b :: bs =>
    match addReq r b.reqs with
    | some l => some ({ b with reqs := l } :: bs)
    | none => (addClosed r bs).map (b :: ·)

/-- Close the open batch of a die (R298). -/
def State.closeBatch (s : State) (die : Nat) : State :=
  match (s.die die).open_ with
  | none => s
  | some b =>
    (s.modDie die (fun d => { d with open_ := none, closed := d.closed ++ [{ b with closed := some s.global }] })).at none s.now
      phDevice .faultRecordWrite

/-- A page request of a field reaches a die's fault unit (R298, R299): the answer says whether it was recorded. -/
def State.pageRequest (s : State) (die : Nat) (r : PageReq) : Bool × State :=
  let d := s.die die
  match addClosed r d.closed with
  | some bs => (true, s.modDie die (fun d => { d with closed := bs }))
  | none =>
    let (b, isNew) : Batch × Bool := match d.open_ with
      | some b => (b, false)
      | none => (⟨[], s.now, none⟩, true)
    match addReq r b.reqs with
    | some l =>
      let b := { b with reqs := l }
      let s := s.modDie die (fun d => { d with open_ := some b })
      (true, if 256 ≤ b.size then s.closeBatch die else s)
    | none =>
      if 4096 ≤ d.heldPages.length && !d.heldPages.contains r.page then (false, s)
      else
        let b := { b with reqs := b.reqs ++ [r] }
        let s := s.modDie die (fun d => { d with open_ := some b })
        let s := if isNew then s.at none (s.now + 40000) phDevice (.faultBatchClose (.ofNat 2 die)) else s
        (true, if 256 ≤ b.size then s.closeBatch die else s)

/-- FAULT_BATCH_CLOSE (R298): 20 µs after it opened, a batch that is still open closes. -/
def execFaultBatchClose (die : BitVec 2) (s : State) : Out3 :=
  .next (match (s.die die.toNat).open_ with
    | some b => if b.opened + 40000 ≤ s.now then s.closeBatch die.toNat else s
    | none => s)

/-- A page request made for a context: one that is not recorded sets hstat.REQLOST (R299).  Whether the fault unit of another package
has room is free (log entry 2). -/
def State.requestFor (s : State) (f rel a : Nat) (write lost hint : Bool) : State :=
  let lose (s : State) : State := s.modRel f rel (fun c => { c with hstat := c.hstat ||| 4 })
  if vPkg a ≠ s.pkgNum then
    let (k, s) := s.drawFree
    if k % 2 = 1 then lose s else s
  else
    let r : PageReq := ⟨f, a / 65536 * 65536, write, lost, hint, 1⟩
    let (ok, s) := s.pageRequest (vDie a) r
    if ok then s else lose s

/-- What the translation of another package finds for an access to a line of it (R288, R291): resident with its rights, non-resident,
or a protection violation.  It is open here (log entry 2). -/
inductive Fate where
  | fine | absent | viol
deriving DecidableEq, Repr

def State.fate (s : State) : Fate × State :=
  let (k, s) := s.drawFree
  (if k % 3 = 1 then .absent else if k % 3 = 2 then .viol else .fine, s)

end Sys2Proof.Machine
end

