-- ==== Sys2Proof/Machine/Stash.lean ====
section
/-! DEFINITION. Domains as keys (R165 to R167), and the stash (R273 to R279): its maps and slots, write-backs, and STASH
(R465). -/

namespace Sys2Proof.Machine

open Sys2Proof

/-! ## Domains (R165 to R167) -/

/-- The container of a level that holds a context, numbered from the field's origin so that it stays the same when an evicted
field is placed elsewhere (R152). -/
def Field.container (f : Field) (rel level : Nat) : Nat :=
  let p := rel / 4
  match level with
  | 0 => rel
  | 1 => p
  | 2 => p % f.w / 4 + 4 * (p / f.w / 4)
  | 3 => dieOfTile (f.locate rel).1 - dieOfTile f.origin
  | _ => 0

/-- The domain that a level and an id name for a context; levels 6 and 7 name none (R166). -/
def State.domainKey (s : State) (f rel level id : Nat) : Option DomKey :=
  if 6 ≤ level then none else some ⟨f, level, (s.field f).container rel level, id⟩

/-- The domain that a context's slot %d n names, as membership sees it (R167). -/
def State.slotDomain (s : State) (f rel : Nat) (c : Ctx) (n : Nat) : Option DomKey :=
  let v := (c.dslot n).toNat
  s.domainKey f rel (v % 8) (fld v 4 4)

/-- The domain of a slot of the issuing context. -/
def State.curDomain (s : State) (n : Nat) : Option DomKey :=
  s.slotDomain s.cf (s.relOf s.cur.tile s.cur.hw) s.cc n

/-! ## Maps and slots (R273, R275) -/

def StMap.first (m : StMap) : Nat := m.gbase / 128

/-- Global line `line` lies in the range of an enabled map. -/
def StMap.covers (m : StMap) (line : Nat) : Bool :=
  m.en && decide (m.first ≤ line) && decide (line < m.first + 2 ^ (m.ssz + m.gsz))

def StMap.slot (m : StMap) (line : Nat) : Nat := line % 2 ^ m.ssz

/-- The physical scratchpad byte where a slot begins. -/
def StMap.base (m : StMap) (member slot : Nat) : Nat := spPhys member (128 * (m.sline + slot))

/-- The line of map k that slot holds. -/
def Ctx.inSlot (c : Ctx) (k slot : Nat) : Option StashLine := c.stash.find? (fun l => l.map == k && l.slot == slot)

def Ctx.holdsLine (c : Ctx) (k line : Nat) : Option StashLine := c.stash.find? (fun l => l.map == k && l.line == line)

/-- A record of an asynchronous command for a context, whether or not it is the issuing one. -/
def State.cmdFor (s : State) (t h : Nat) (i : Instr) (ev : Option Nat) : Cmd :=
  let c := s.ctx t h
  { s.newAsync i ev with
    tile := t, hw := h, field := c.fieldNum, rel := s.relOf t h, pc := c.pc, sys := c.sys, svc := false, set := c.set, sysw := c.sysw }

/-! ## Write-back (R277) -/

/-- The members' scratchpad half of a context. -/
def State.memberOf (s : State) (t h : Nat) : Nat := (s.field (s.ctx t h).fieldNum).member

def Cmd.isFence (c : Cmd) : Bool :=
  match c.ins with
  | .fence .. => true
  | _ => false

/-- A store that a FENCE has captured is still to be served in a line. -/
def Cmd.awaits (c : Cmd) (cs : List Cmd) (line : Nat) : Bool := cs.any (fun x => c.fset.contains x.id && x.wait.contains line)

/-- A FENCE of the context that waits for a dirty line waits for the write-back of its bytes from now on (R315). -/
def Cmd.handOver (c : Cmd) (f rel line id : Nat) (cs : List Cmd) : Cmd :=
  if c.isFence && c.field == f && c.rel == rel && c.flags.contains line then
    { c with fset := id :: c.fset, flags := if c.awaits cs line then c.flags else c.flags.filter (· != line) }
  else c

/-- Send the dirty bytes of a line to its home slice, as a write of the map's scope domain; the line is clean then. -/
def State.writeBack (s : State) (t h : Nat) (m : StMap) (l : StashLine) : State :=
  if l.dirty.isEmpty then s
  else
    let base := m.base (s.memberOf t h) l.slot
    let sp := (s.tile t).scratch
    let c := s.cmdFor t h (.homeSliceStoreAccept s.nextId) none
    let c := { c with
      cells := l.dirty.map (fun o => ⟨128 * l.line + o, 255, sp.byte (base + o)⟩),
      scope := s.domainKey c.field c.rel m.level m.id, wait := [l.line] }
    let s := { s with cmds := s.cmds.map (fun (x : Cmd) => x.handOver c.field c.rel l.line c.id s.cmds) }
    (s.modCtx t h (fun x => { x with
      stash := updFirst (fun y => y.map == l.map && y.slot == l.slot) (fun y => { y with dirty := [] }) x.stash })).async c
        .homeSliceStoreAccept

def State.writeBackAll (s : State) (t h : Nat) (m : StMap) (ls : List StashLine) : State :=
  ls.foldl (fun s l => s.writeBack t h m l) s

/-- Empty slots of a context. -/
def Ctx.empty (c : Ctx) (p : StashLine → Bool) : Ctx := { c with stash := c.stash.filter (fun l => !p l) }

/-- Unmap: write dirty lines back, then empty the map (R277). -/
def State.unmap (s : State) (t h k : Nat) : State :=
  let c := s.ctx t h
  (s.writeBackAll t h (c.map k) (c.stash.filter (·.map == k))).modCtx t h (·.empty (·.map == k))

/-- Write back and empty the maps of a context that `p` selects. -/
def State.unmapWhere (s : State) (t h : Nat) (p : StMap → Bool) : State :=
  (List.range 4).foldl (fun s k => if p ((s.ctx t h).map k) then s.unmap t h k else s) s

/-- Make room in a slot for another line (R275). -/
def State.vacate (s : State) (t h k slot : Nat) : State :=
  let c := s.ctx t h
  match c.inSlot k slot with
  | none => s
  | some l => (s.writeBack t h (c.map k) l).modCtx t h (·.empty (fun x => x.map == k && x.slot == slot))

/-- Put a line into its empty slot (R275). -/
def State.fillSlot (s : State) (t h k line : Nat) (bytes : List Byte) (w u : Bool) : State :=
  let m := (s.ctx t h).map k
  let base := m.base (s.memberOf t h) (m.slot line)
  (s.modTile t (fun x => x.spWrite s.now false (numbered base bytes))).modCtx t h
    (fun c => { c with stash := c.stash ++ [⟨k, m.slot line, line, [], w, u⟩] })

/-! ## STASH (R465) -/

/-- The enabled maps of the field's contexts on the tile, as (hardware context, map), but for map k of the issuing one. -/
def State.otherMaps (s : State) (k : Nat) : List (Nat × StMap) :=
  (List.range 4).flatMap (fun h =>
    let c := s.ctx s.cur.tile h
    if c.field == some s.cf then
      (List.range 4).filterMap (fun j =>
        if (c.map j).en && !(h == s.cur.hw && j == k) then some (h, c.map j) else none)
    else [])

/-- The checks of R274, in the table's order. -/
def chkStash (g : Guard) (k : BitVec 2) (ssz gsz : BitVec 4) (ds : BitVec 3) (gs : BitVec 5) (sline : BitVec 13) (s : State) :
    Option Trap :=
  let gb := (s.cc.sreg gs.toNat).toNat
  let n := 2 ^ ssz.toNat
  let gn := 2 ^ (ssz.toNat + gsz.toNat)
  let others := s.otherMaps k.toNat
  if !s.cc.guard g then none
  else
    firstTrap [
      ((s.curDomain ds.toNat).isNone, illegal5 slM),
      (decide (12 < ssz.toNat) || decide (27 < ssz.toNat + gsz.toNat) || gb % (128 * gn) != 0, ⟨7, 3, slM, gb, 0⟩),
      (decide (s.spLimit / 128 < sline.toNat + n), protScratch slM (128 * sline.toNat)),
      (others.any (fun x => meets sline.toNat n x.2.sline (2 ^ x.2.ssz)), protScratch slM (128 * sline.toNat)),
      (others.any (fun x => x.1 == s.cur.hw && meets (gb / 128) gn x.2.first (2 ^ (x.2.ssz + x.2.gsz))),
        protScratch slM gb)]

def stashWord (ssz gsz : BitVec 4) (sline : BitVec 13) (level id : Nat) (gb : W64) : BitVec 128 :=
  .ofNat 128 (sline.toNat + 2 ^ 13 * ssz.toNat + 2 ^ 17 * gsz.toNat + 2 ^ 24 * level + 2 ^ 27 * id + 2 ^ 31 + 2 ^ 64 * gb.toNat)

/-- Set map k: an enabled map is unmapped first, and the new record is in force from issue + 1. -/
def State.setMap (s : State) (k : Nat) (m : BitVec 128) : State :=
  (if (s.cc.map k).en then s.unmap s.cur.tile s.cur.hw k else s).result 1 phLand slM 0 (.stmap k m)

def execStash (g : Guard) (k : BitVec 2) (ssz gsz : BitVec 4) (ds : BitVec 3) (gs : BitVec 5) (sline : BitVec 13) (s : State) :
    Out3 :=
  s.slot g (chkStash g k ssz gsz ds gs sline s) (fun s =>
    let d := (s.cc.dslot ds.toNat).toNat
    s.setMap k.toNat (stashWord ssz gsz sline (d % 8) (fld d 4 4) (s.cc.sreg gs.toNat)))

/-- stash.off (R465): of a disabled map it does nothing. -/
def execStashOff (g : Guard) (k : BitVec 2) (s : State) : Out3 :=
  s.slot g none (fun s => if (s.cc.map k.toNat).en then s.setMap k.toNat 0 else s)

end Sys2Proof.Machine
end

