-- ==== Sys2Proof/Machine/Memory.lean ====
section
/-! DEFINITION. Core-path accesses: LDS, STS, TLD and TST to the scratchpad and to global memory (R457 to R462), how the stash
and the home slices serve them (R275, R294, R304, R308, R311, R312), and protection violations (R295). -/

namespace Sys2Proof.Machine

open Sys2Proof

/-! ## Elements in memory (R461) -/

/-- The address of element (i, j) of a tile of a type. -/
def memAddr (ty ea pitch i j : Nat) : Nat := (ea + i * pitch + j * typeBits ty / 8) % 2 ^ 64

/-- The bytes of an element in memory: 1 for a type below a byte. -/
def elemSize (ty : Nat) : Nat := (typeBits ty + 7) / 8

/-- The row pitch: sP, or the row footprint when sP = 0. -/
def pitchOf (sp ty : Nat) : Nat := if sp = 0 then 8 * typeBits ty else sp

/-- The memory bytes under the active elements of a view. -/
def tileAddrs (v : W64) (ea pitch : Nat) : List Nat :=
  let ty := vType v
  distinct ((activeElems v).flatMap (fun p => (List.range (elemSize ty)).map (fun b => (memAddr ty ea pitch p.1 p.2 + b) % 2 ^ 64)))

/-- Put element bits into the byte or bytes at its address. -/
def putElem (ty ea pitch : Nat) (m : Mem) (p : Nat × Nat) (x : Nat) : Mem :=
  let a := memAddr ty ea pitch p.1 p.2
  let n := typeBits ty
  if n < 8 then
    m.setByte a (mergeByte (m.byte a) (.ofNat 8 ((2 ^ n - 1) * 2 ^ (p.2 * n % 8))) (.ofNat 8 (x % 2 ^ n * 2 ^ (p.2 * n % 8))))
  else m.setNum a (n / 8) x

/-- Element (i, j) out of memory bytes. -/
def getElem (ty ea pitch : Nat) (m : Mem) (i j : Nat) : Nat :=
  let a := memAddr ty ea pitch i j
  let n := typeBits ty
  if n < 8 then fld (m.byte a).toNat (j * n % 8) n else m.num a (n / 8)

/-- The memory bytes a tile copy stores, row by row. -/
def storeMem (q : TileCopy) (ea pitch : Nat) : Mem :=
  (activeElems q.view).foldl (fun m p => putElem (vType q.view) ea pitch m p (q.elem p.1 p.2)) []

/-! ## Checks (R458) -/

def alignMem (a : Nat) : Trap := ⟨7, 2, slM, a, 0⟩

/-- The flag view: R202, then that it is MASK (R294, R461). -/
def State.flagViewTrap (s : State) (fv : Option (BitVec 6)) : Option Trap :=
  match fv with
  | none => none
  | some n => s.viewCheck slM n.toNat

def State.flagTypeTrap (s : State) (fv : Option (BitVec 6)) : Option Trap :=
  match fv with
  | none => none
  | some n => if vType (s.cc.vreg n.toNat) == 7 then none else some (illegal5 slM)

/-- A scratchpad byte the issuing context may not reach (R270, R274). -/
def State.spBarred (s : State) (a : Nat) : Bool := decide (s.spLimit ≤ a) || s.inStash s.cur.tile s.cf a

/-- An enabled map of the issuing context covers a line. -/
def Ctx.mapOf (c : Ctx) (line : Nat) : Option Nat := (List.range 4).find? (fun k => (c.map k).covers line)

/-- A store none of whose domains is named: a line outside every map, under a gscope slot that names none (R302). -/
def State.scopeTrap (s : State) (addrs : List Nat) : Option Trap :=
  if addrs.all (fun a => (s.cc.mapOf (a / 128)).isSome) || (s.curDomain (s.cc.gscope.toNat % 8)).isSome then none
  else some (illegal5 slM)

/-! ## The issue of a global access (R459) -/

/-- Whether a line is in a stash slot of the issuing context. -/
def Ctx.hits (c : Ctx) (line : Nat) : Bool :=
  match c.mapOf line with
  | some k => (c.holdsLine k line).isSome
  | none => false

/-- Accept a core-path access: with a line in the stash it is first served at issue + 16 (R275), otherwise at a free time
within the 4,000 cycles of R295. -/
def State.issueAccess (s : State) (c : Cmd) (ev : Nat → Instr) : State :=
  let lines := distinct (c.cells.map (fun x => x.addr / 128))
  let c := { c with
    wait := lines, maps := (List.range 4).map (fun k => s.cc.stmap.rd 0 k),
    scope := s.curDomain (s.cc.gscope.toNat % 8) }
  let (k, s) := if lines.any s.cc.hits then (15, s) else (let (d, s) := s.drawFree; (d % 3999, s))
  { s with
    cmds := s.cmds ++ [c], nextId := s.nextId + 1,
    agenda := ⟨none, s.now + 1 + k, phLand, c.seq, ev c.id, 0⟩ :: s.agenda }

/-! ## Protection violations (R295) -/

/-- PROT_VIOLATION_REPORT: the access reads and writes nothing and counts no event; its context takes PROT 0x03 at the next
boundary. -/
def execProtViolationReport (id : Nat) (s : State) : Out3 :=
  match s.cmd id with
  | none => .next s
  | some c =>
    match c.viol with
    | some a => .next ((s.dropCmd id).modCmd c (·.report s.now c.seq (some c.pc) ⟨6, 3, slM, a, 0⟩))
    | none => .next s

/-! ## Service of one line -/

/-- The map of an access over a line, as it stood at issue, with its number. -/
def Cmd.mapOf (c : Cmd) (line : Nat) : Option (Nat × StMap) :=
  ((numbered 0 (c.maps.map stMap)).find? (fun p => p.2.covers line))

/-- A STASH that changes map k has issued, and its record is not in force yet. -/
def Ctx.remaps (c : Ctx) (k : Nat) : Bool :=
  c.inflight.any (fun r => match r.dest with
    | .stmap j _ => j == k
    | _ => false)

/-- The map over a line when it is still in force: then the stash serves the line. -/
def State.stashMap (s : State) (c : Cmd) (line : Nat) : Option (Nat × StMap) :=
  match c.mapOf line with
  | none => none
  | some (k, m) =>
    let x := s.ctx c.tile c.hw
    if x.stmap.rd 0 k == (c.maps[k]?).getD 0 && !x.remaps k then some (k, m) else none

/-- Whether a slot of the access's context holds the line. -/
def State.heldFor (s : State) (c : Cmd) (line : Nat) : Option StashLine :=
  match s.stashMap c line with
  | some (k, _) => (s.ctx c.tile c.hw).holdsLine k line
  | none => none

def Cmd.isStore (c : Cmd) : Bool :=
  match c.ins with
  | .sts .. => true
  | .tst .. => true
  | .homeSliceStoreAccept _ => true
  | _ => false

def Cmd.isWriteBack (c : Cmd) : Bool :=
  match c.ins with
  | .homeSliceStoreAccept _ => true
  | _ => false

def Cmd.isAtomic (c : Cmd) : Bool :=
  match c.ins with
  | .atom .. => true
  | .atomt .. => true
  | _ => false

def Cmd.isLoad (c : Cmd) : Bool :=
  match c.ins with
  | .lds .. => true
  | .tld .. => true
  | _ => false

def Cmd.isHint (c : Cmd) : Bool :=
  match c.ins with
  | .hintReq .. => true
  | .hintFill .. => true
  | .hintDrop .. => true
  | .hintL2 .. => true
  | _ => false

/-- A store of a group member, which goes to the home slice too when the stash holds its line (R312). -/
def State.twofold (s : State) (c : Cmd) : Bool := c.isStore && s.grouped c.field

/-- The stash holds a line that an access waits for, and the access has not reached it there. -/
def State.inStashNow (s : State) (c : Cmd) (line : Nat) : Bool :=
  (s.heldFor c line).isSome && !(c.isStore && c.fset.contains line)

/-- A line of an access is the home slice's: one that the stash does not hold, or any of a group member's store. -/
def State.goesHome (s : State) (c : Cmd) (line : Nat) : Bool := (s.heldFor c line).isNone || s.twofold c

/-- Accesses of one context to one line are applied in issue order (R308); what the context wrote back comes first. -/
def State.blocked (s : State) (c : Cmd) (line : Nat) : Bool :=
  s.cmds.any (fun x => x.id != c.id && x.field == c.field && x.rel == c.rel && x.wait.contains line
    && (if x.isWriteBack then !c.isWriteBack || decide (x.seq < c.seq) else !c.isWriteBack && decide (x.seq < c.seq)))

/-- Earlier loads and stores of the context that have not reached a line in the stash: a hit waits for no other access, since those go
to the home slice (R275). -/
def State.aheadIn (s : State) (c : Cmd) (line : Nat) : List Cmd :=
  s.cmds.filter (fun x => x.field == c.field && x.rel == c.rel && decide (x.seq < c.seq) && x.wait.contains line
    && (x.isLoad || (x.isStore && !x.isWriteBack)) && x.viol.isNone && s.inStashNow x line)

/-- The bytes of an access within a line, as (offset, value). -/
def Cmd.inLine (c : Cmd) (line : Nat) : List (Nat × Byte) :=
  (c.cells.filter (fun x => x.addr / 128 == line)).map (fun x => (x.addr % 128, x.val))

/-- The lowest address of an access within a line. -/
def Cmd.lowIn (c : Cmd) (line : Nat) : Nat :=
  128 * line + (((c.inLine line).map (·.1)).min?).getD 0

/-- Whether the outside has supplied a line of another package, and its bytes, or that it is non-resident or protected (log entry
2). -/
def supplied (remote : Table Byte) (line : Nat) : Bool :=
  remote.any (fun e => e.1 / 128 == line || e.1 == 2 ^ 64 + line || e.1 == 2 ^ 65 + line)

def suppliedAbsent (remote : Table Byte) (line : Nat) : Bool := remote.any (fun e => e.1 == 2 ^ 64 + line)

def suppliedViol (remote : Table Byte) (line : Nat) : Bool := remote.any (fun e => e.1 == 2 ^ 65 + line)

/-- W and U of the page of a supplied line; an access that needed one has found it set. -/
def suppliedRights (remote : Table Byte) (line : Nat) (write sys : Bool) : Bool × Bool :=
  let b := (remote.rd 0 (2 ^ 66 + line)).toNat
  (write || !bitAt b 0, !sys || !bitAt b 1)

/-- Where one line of an access is, once its translation is made. -/
inductive Placed where
  | viol | busy
  | at_ (x : LineAt)
deriving DecidableEq, Repr

/-- A line of another package as an access finds it: a load waits for what the outside supplies, a store finds it as `fate` says. -/
def State.placeRemote (s : State) (f rel a : Nat) (write : Bool) (line : Nat) : Placed × State :=
  let at_ (absent : Bool) : Placed := .at_ ⟨line, absent, true, 0, 0, true, true, false⟩
  if !write then (at_ false, s)
  else
    let (k, s) := s.fate
    match k with
    | .fine => (at_ false, s)
    | .absent => (at_ true, s.requestFor f rel a true false false)
    | .viol => (.viol, s)

/-- Translate one line of an access on its arrival (R293): where it is, or that it is a violation. -/
def State.placeLine (s : State) (c : Cmd) (write : Bool) (pass : Nat → Bool) (line : Nat) : Placed × State :=
  let a := c.lowIn line
  match s.translate (whoOf c.sys) write a pass with
  | (.viol, s) => (.viol, s)
  | (.busy, s) => (.busy, s)
  | (.absent, s) => (.at_ ⟨line, true, false, 0, 0, false, false, false⟩, s.requestFor c.field c.rel a write false false)
  | (.remote, s) => s.placeRemote c.field c.rel a write line
  | (.home d p w u bs, s) => (.at_ ⟨line, false, false, d, p / 128, w, u, bs⟩, s)

/-- A hit in a line whose page lacks the right that the access needs (R275, R295). -/
def State.heldViol (s : State) (c : Cmd) (write : Bool) (line : Nat) : Bool :=
  (s.heldFor c line).any (fun l => (write && !l.w) || (!c.sys && !l.u))

/-- An access violates in a line: it keeps its lowest address. -/
def Cmd.violates (c : Cmd) (line : Nat) : Cmd :=
  let a := c.lowIn line
  { c with viol := some (match c.viol with
    | some b => min a b
    | none => a) }

/-- The lines of an access arrive: each that goes to its home is translated, once (R293), and each that the stash holds is tested
against the rights it carries. -/
def State.placeLines (s : State) (c : Cmd) (write : Bool) (pass : Nat → Bool) : List Nat → Cmd × State
  | [] => ({ c with made := true }, s)
  | l :: ls =>
    let (c, s) := State.placeLines s c write pass ls
    if s.heldViol c write l then (c.violates l, s)
    else if !s.goesHome c l || c.xl.any (·.line == l) then (c, s)
    else
      match s.placeLine c write pass l with
      | (.at_ x, s) => ({ c with xl := x :: c.xl }, s)
      | (.viol, s) => (c.violates l, s)
      | (.busy, s) => ({ c with made := false }, s)

/-- A violation is reported in this cycle (R295). -/
def State.reportViol (s : State) (c : Cmd) : State := (s.putCmd c).at none s.now phLand (.protViolationReport c.id)

/-- The bytes a fill or a load reads at its home: a line of another package as the outside supplies it, else the committed
bytes under the context's own pending ones (R308), without what its later stores have written there meanwhile; none while a session holds
the channel (R98). -/
def State.homeBytes (s : State) (c : Cmd) (x : LineAt) (remote : Table Byte) : Option (List Byte × State) :=
  if x.remote then
    (if supplied remote x.line then some (Mem.bytes remote (128 * x.line) 128, s) else none)
  else if s.dramBusy x.die x.ln false then none
  else
    some ((s.die x.die).readWithout x.ln (writerOf c.field c.rel) (if c.isLoad then c.fset else []), s.clearU x.die x.ln false)

/-- A line that its package has just answered non-resident becomes a page request there (R298, R299). -/
def State.absentNow (s : State) (c : Cmd) (x : LineAt) (write : Bool) : State :=
  if x.absent then s else s.requestFor c.field c.rel (c.lowIn x.line) write false false

/-- The version that a store to another package's line joins there: none outside the packages of the writer's field, where it is not
deferred (R307). -/
def State.remoteVersion (s : State) (f line : Nat) (dom : DomKey) : Option (DomKey × Nat) :=
  if (s.field f).notices.any (fun n => n.1 == vPkg (128 * line)) then some (dom, (s.domain dom).phase.toNat) else none

/-- A store's bytes leave for the home slice of another package; one that is deferred there is away until its phase ends. -/
def State.sendRemote (s : State) (c : Cmd) (line : Nat) (dom : DomKey) : State :=
  let v := s.remoteVersion c.field line dom
  let sent := v.toList.map (fun (p : DomKey × Nat) => (p.1, p.2, writerOf c.field c.rel, c.seq))
  let cells := (c.inLine line).map (fun (b : Nat × Byte) => (128 * line + b.1, b.2))
  { s with away := sent ++ s.away }.emit (.remoteWrite (128 * line) cells v)

/-- A store's bytes reach the home slice (R304): none while they must wait. -/
def State.acceptHome (s : State) (c : Cmd) (x : LineAt) (dom : DomKey) : Option State :=
  if x.remote then some (s.sendRemote c x.line dom)
  else if s.mustWait x.die x.ln dom then none
  else some (s.acceptBytes x.die x.ln dom x.bs (writerOf c.field c.rel) c.seq (c.inLine x.line))

/-- The last-use modifier (R461). -/
def Cmd.lastUse (c : Cmd) : Bool :=
  match c.ins with
  | .tld _ _ _ _ _ _ _ lu => lu
  | _ => false

/-- A hit in slot `l` of map k (R275): read or write the scratchpad bytes. -/
def State.stashHit (s : State) (c : Cmd) (k : Nat) (m : StMap) (line : Nat) : Cmd × State :=
  let member := s.memberOf c.tile c.hw
  let base := m.base member (m.slot line)
  if c.isStore then
    let s := s.modTile c.tile (fun x => x.spWrite s.now false ((c.inLine line).map (fun b => (base + b.1, b.2))))
    let offs := if s.grouped c.field then [] else (c.inLine line).map (·.1)
    (c, s.modCtx c.tile c.hw (fun x => { x with
      stash := updFirst (fun y => y.map == k && y.line == line) (fun y => { y with dirty := distinct (y.dirty ++ offs) }) x.stash }))
  else
    let sp := (s.tile c.tile).scratch
    let c := { c with bytes := Mem.setCells c.bytes ((c.inLine line).map (fun b => (128 * line + b.1, sp.byte (base + b.1)))) }
    (c, if c.lastUse then s.modCtx c.tile c.hw (·.empty (fun y => y.map == k && y.line == line)) else s)

/-- Serve a line through the stash: a hit, or a fill and then as a hit (R275); none while the fill must wait.  A line in a
non-resident page is absent for this access, and the slot stays empty (R279). -/
def State.serveStash (s : State) (c : Cmd) (x : LineAt) (remote : Table Byte) (k : Nat) (m : StMap) : Option (Cmd × State) :=
  if ((s.ctx c.tile c.hw).holdsLine k x.line).isSome then some (s.stashHit c k m x.line)
  else if x.absent || suppliedAbsent remote x.line then
    some ({ c with flags := x.line :: c.flags }, (s.absentNow c x c.isStore).vacate c.tile c.hw k (m.slot x.line))
  else
    match s.homeBytes c x remote with
    | none => none
    | some (bs, s) =>
      let (w, u) := if x.remote then suppliedRights remote x.line c.isStore c.sys else (x.w, x.u)
      let s := (s.vacate c.tile c.hw k (m.slot x.line)).fillSlot c.tile c.hw k x.line bs w u
      some (s.stashHit c k m x.line)

/-- An access takes its bytes of a line. -/
def Cmd.take (c : Cmd) (line : Nat) (bs : List Byte) : Cmd :=
  { c with bytes := Mem.setCells c.bytes ((c.inLine line).map (fun b => (128 * line + b.1, (bs[b.1]?).getD 0))) }

/-- Serve a line at its home slice. -/
def State.serveHome (s : State) (c : Cmd) (x : LineAt) (remote : Table Byte) (dom : DomKey) : Option (Cmd × State) :=
  if x.absent || suppliedAbsent remote x.line then some ({ c with flags := x.line :: c.flags }, s.absentNow c x c.isStore)
  else if c.isStore then
    (s.acceptHome c x dom).map (fun s => (c, s))
  else
    (s.homeBytes c x remote).map (fun (bs, s) => (c.take x.line bs, s))

/-- The scope domain of a store to a line: its map's, else the one gscope named at issue (R302). -/
def State.storeDomain (s : State) (c : Cmd) (line : Nat) : DomKey :=
  let dflt : DomKey := ⟨c.field, 0, c.rel, 0⟩
  match (if c.isWriteBack then none else c.mapOf line) with
  | some (_, m) => (s.domainKey c.field c.rel m.level m.id).getD dflt
  | none => c.scope.getD dflt

/-- Serve one translated line, or say that it must wait.  A store of a group member through the stash is also sent to its home
slice, and never leaves the line dirty (R312). -/
def State.serveLine (s : State) (c : Cmd) (x : LineAt) (remote : Table Byte) : Option (Cmd × State) :=
  let dom := s.storeDomain c x.line
  match s.stashMap c x.line with
  | none => s.serveHome c x remote dom
  | some (k, m) =>
    if s.twofold c then
      match s.serveHome c x remote dom with
      | none => none
      | some (c', s') => if c'.flags.contains x.line || c'.fset.contains x.line then some (c', s') else s'.serveStash c' x remote k m
    else s.serveStash c x remote k m

/-- An access reaches a line that the stash holds (R275): a group member's store still has its home to go to. -/
def State.hitNow (s : State) (c : Cmd) (line : Nat) : Cmd × State :=
  match s.stashMap c line with
  | none => (c, s)
  | some (k, m) =>
    let (c, s) := s.stashHit c k m line
    if s.twofold c then ({ c with fset := line :: c.fset }, s) else ({ c with wait := c.wait.filter (· != line) }, s)

/-- Earlier accesses of the context reach a line in the stash before a hit that comes after them does. -/
def State.hitsAhead (s : State) (c : Cmd) (line : Nat) : State :=
  (s.aheadIn c line).foldl (fun s x =>
    let (x, s) := s.placeLines x x.isStore noPass x.wait
    if x.viol.isSome then s.reportViol x
    else if !x.made || !(s.aheadIn x line).isEmpty then s.putCmd x
    else let (x, s) := s.hitNow x line; s.putCmd x) s

/-- Every line of an access that the stash holds is served, after the context's earlier accesses to it. -/
def State.serveHits (s : State) (c : Cmd) : Cmd × State :=
  (c.wait.filter (s.inStashNow c)).foldl (fun acc l =>
    let s := acc.2.hitsAhead acc.1 l
    if (s.aheadIn acc.1 l).isEmpty && s.inStashNow acc.1 l then s.hitNow acc.1 l else (acc.1, s)) (c, s)

/-- One firing of an access: its lines arrive; once all are translated, it serves what the stash holds, and one further line, freely
chosen. -/
def State.fire (s : State) (c : Cmd) (remote : Table Byte) : Cmd × State :=
  let (c, s) := s.placeLines c c.isStore noPass c.wait
  let bad := (c.xl.filter (fun x => x.remote && suppliedViol remote x.line)).map (fun x => c.lowIn x.line)
  let c : Cmd := { c with viol := (c.viol.toList ++ bad).min? }
  if c.viol.isSome || !c.made then (c, s)
  else
    let (c, s) := s.serveHits c
    let left := c.xl.filter (fun x => c.wait.contains x.line && s.goesHome c x.line
      && (!x.remote || c.isStore || supplied remote x.line))
    let (k, s) := s.drawFree
    match left[k % left.length]? with
    | some x =>
      (match (if s.blocked c x.line then none else s.serveLine c x remote) with
      | some (c, s) => ({ c with wait := c.wait.filter (· != x.line) }, s)
      | none => (c, s))
    | none => (c, s)

/-! ## Completion (R294, R459, R460, R462) -/

/-- Write masked bytes of register space of the access's context. -/
def State.putAccess (s : State) (c : Cmd) (ws : List MaskedByte) : State := s.putRegs c ws

/-- The flag view's bits: bit k is set for an absent element k, and every other bit of the view's active elements is 0. -/
def flagCells (fv : W64) (bad : Nat → Bool) : List MaskedByte :=
  (activeElems fv).flatMap (fun p => elemCells fv p.1 p.2 (b2n (bad (64 * p.1 + p.2))))

/-- Whether element k of an access is absent. -/
def Cmd.badElem (c : Cmd) (tile : Option W64) (k : Nat) : Bool :=
  match tile with
  | some v => vActive v (k / 64) (k % 64) && c.flags.contains (memAddr (vType v) c.addr c.pitch (k / 64) (k % 64) / 128)
  | none => k == 0 && c.flags.contains (c.addr / 128)

def Cmd.flagWrite (c : Cmd) (fv : Option (BitVec 6)) (tile : Option W64) : List MaskedByte :=
  match fv with
  | none => []
  | some _ => flagCells (c.views.getLast?.getD 0) (c.badElem tile)

/-- What an access writes when its last line is served. -/
def State.finishAccess (s : State) (c : Cmd) : State :=
  match c.ins with
  | .lds _ d _ _ z sx _ fv =>
    let n := 2 ^ z.toNat
    let x := c.bytes.num c.addr n
    let x : W64 := if sx then sextTo 64 (8 * n) x else .ofNat 64 x
    (s.modCmd c (·.putS c.set d.toNat x)).putAccess c (c.flagWrite fv none)
  | .sts _ _ _ _ _ _ fv => s.putAccess c (c.flagWrite fv none)
  | .tld _ _ _ _ _ _ fv _ =>
    let v := c.views.headD 0
    let ws := (activeElems v).flatMap (fun p =>
      elemCells v p.1 p.2 (getElem (vType v) c.addr c.pitch c.bytes p.1 p.2))
    s.putAccess c (ws ++ c.flagWrite fv (some v))
  | .tst _ _ _ _ _ _ fv => s.putAccess c (c.flagWrite fv (some (c.views.headD 0)))
  | _ => s

/-- Fire an access and complete it when nothing is left; a violation is reported in this cycle; otherwise it goes on a free
time later, unless all it waits for is another package. -/
def State.stepAccess (s : State) (c : Cmd) (remote : Table Byte) (again : Instr) : State :=
  let (c, s) := s.fire c remote
  if c.viol.isSome then s.reportViol c
  else if c.wait.isEmpty then (s.finishAccess c).complete c
  else
    let s := s.putCmd c
    let away := c.wait.all (fun l => c.xl.any (fun x => x.line == l && x.remote && !c.isStore && s.goesHome c l))
    if away then s else s.later c.seq 1 again

/-- GLOBAL_LOAD_COMPLETE: the next line of a load is served, and with the last one the load completes. -/
def execGlobalLoadComplete (id : Nat) (remote : Table Byte) (s : State) : Out3 :=
  match s.cmd id with
  | none => .next s
  | some c => .next (if c.isLoad && c.viol.isNone then s.stepAccess c remote (.globalLoadComplete id []) else s)

/-- The line of a write-back arrives and is translated, once (R293): none while its translation waits for a channel. -/
def State.placeWriteBack (s : State) (c : Cmd) (pass : Nat → Bool) : Option (Option LineAt × State) :=
  let line := c.wait.headD 0
  match c.xl.head? with
  | some x => some (some x, s)
  | none =>
    match s.translate .system true (128 * line) pass with
    | (.busy, _) => none
    | (.home d p w u bs, s) => some (some ⟨line, false, false, d, p / 128, w, u, bs⟩, s)
    | (.remote, s) =>
      let (k, s) := s.fate
      some (if k = .fine then some ⟨line, false, true, 0, 0, true, true, false⟩ else none, s)
    | (_, s) => some (none, s)

/-- A write-back into a page that is no longer mapped or writable is dropped (R279). -/
def State.dropWriteBack (s : State) (c : Cmd) : State :=
  ((s.modCmd c (fun x => { x with hstat := x.hstat ||| 2 })).requestFor c.field c.rel (128 * c.wait.headD 0) true true false).dropCmd c.id

/-- A write-back at its home slice: it waits for its turn and for room (R305, R308). -/
def State.stepWriteBack (s : State) (c : Cmd) : State :=
  let line := c.wait.headD 0
  let again (s : State) : State := s.later c.seq 1 (.homeSliceStoreAccept c.id)
  match s.placeWriteBack c noPass with
  | none => again s
  | some (none, s) => s.dropWriteBack c
  | some (some x, s) =>
    let s := s.putCmd { c with xl := [x] }
    if s.blocked c line then again s
    else match s.acceptHome c x (s.storeDomain c line) with
      | some s => s.dropCmd c.id
      | none => again s

/-- HOME_SLICE_STORE_ACCEPT: the next line of a store, or a write-back, is accepted at its home slice (R304, R305). -/
def execHomeSliceStoreAccept (id : Nat) (s : State) : Out3 :=
  match s.cmd id with
  | none => .next s
  | some c =>
    .next (if c.isWriteBack then s.stepWriteBack c
      else if c.isStore && c.viol.isNone then s.stepAccess c [] (.homeSliceStoreAccept id) else s)

/-! ## LDS and STS (R460) -/

/-- An effective address, as R457 forms it for the issuing context. -/
def State.curEa (s : State) (ea : Ea) : Nat := s.cc.ea ea

/-- The views an access names, for its completion: the tile's, then the flag view's. -/
def State.accessViews (s : State) (v : Option (BitVec 6)) (fv : Option (BitVec 6)) : List W64 :=
  (v.toList ++ fv.toList).map (fun n => s.cc.vreg n.toNat)

/-- The address and space checks of one element of n bytes. -/
def State.elemTrap (s : State) (ea n : Nat) (sp : Bool) : Option Trap :=
  firstTrap [(ea % n != 0, alignMem ea), (!sp && s.spBarred ea, protScratch slM ea)]

def chkLds (i : Instr) (g : Guard) (ea : Ea) (sp : Bool) (z : BitVec 2) (fv : Option (BitVec 6)) (s : State) : Option Trap :=
  s.achk g (Instr.rangeTrap i slM) none none
    (allTraps [s.flagViewTrap fv, s.flagTypeTrap fv, s.elemTrap (s.curEa ea) (2 ^ z.toNat) sp])

def execLds (g : Guard) (d : BitVec 5) (ea : Ea) (sp : Bool) (z : BitVec 2) (sx : Bool) (e : BitVec 4)
    (fv : Option (BitVec 6)) (s : State) : Out3 :=
  s.slot g (chkLds (.lds g d ea sp z sx e fv) g ea sp z fv s) (fun s =>
    let a := s.curEa ea
    let n := 2 ^ z.toNat
    let s' := s.postIncr slM ea
    if sp then
      let c := { s'.newAsync (.lds g d ea sp z sx e fv) (some e.toNat) with
        set := s.cc.sSet d.toNat, addr := a, views := s.accessViews none fv,
        cells := (List.range n).map (fun k => ⟨a + k, 255, 0⟩) }
      s'.issueAccess c (fun id => .globalLoadComplete id [])
    else
      let (m, s') := s'.spRead s.cur.tile s.cmember true ((List.range n).map (· + a))
      let x := m.num a n
      s'.scalarResult 12 slM d (if sx then sextTo 64 (8 * n) x else .ofNat 64 x))

def chkSts (i : Instr) (g : Guard) (ea : Ea) (sp : Bool) (z : BitVec 2) (fv : Option (BitVec 6)) (s : State) : Option Trap :=
  s.achk g (Instr.rangeTrap i slM) none none
    (allTraps [s.flagViewTrap fv, s.flagTypeTrap fv, (if sp then s.scopeTrap [s.curEa ea] else none),
      s.elemTrap (s.curEa ea) (2 ^ z.toNat) sp])

def execSts (g : Guard) (d : BitVec 5) (ea : Ea) (sp : Bool) (z : BitVec 2) (e : BitVec 4) (fv : Option (BitVec 6)) (s : State) :
    Out3 :=
  s.slot g (chkSts (.sts g d ea sp z e fv) g ea sp z fv s) (fun s =>
    let a := s.curEa ea
    let bs := leBytes (2 ^ z.toNat) (s.cc.sreg d.toNat).toNat
    let s' := s.postIncr slM ea
    if sp then
      let c := { s'.newAsync (.sts g d ea sp z e fv) (some e.toNat) with
        addr := a, views := s.accessViews none fv, cells := (numbered a bs).map (fun p => ⟨p.1, 255, p.2⟩) }
      s'.issueAccess c .homeSliceStoreAccept
    else s'.result 12 phLand slM 0 (.scratch (numbered (spPhys s.cmember a) bs)))

/-! ## TLD and TST (R461, R462, R334) -/

/-- The 16-byte line of the footprint in which element (i, j) lies. -/
def footLine (ty i j : Nat) : Nat := (elemAt ty i j).1 / 16

/-- The first footprint line, from `from_` on, with an element the issuing context may not reach, and the lowest such byte's
offset. -/
def State.badTileLine (s : State) (v : W64) (ea pitch from_ : Nat) : Option (Nat × Nat) :=
  let ty := vType v
  let bad := (activeElems v).filterMap (fun p =>
    let a := memAddr ty ea pitch p.1 p.2
    if decide (from_ ≤ footLine ty p.1 p.2) && s.spBarred a then some (footLine ty p.1 p.2, a) else none)
  match (bad.map (·.1)).min? with
  | none => none
  | some l => some (l, (((bad.filter (fun b => b.1 == l)).map (·.2)).min?).getD 0)

/-- PROT 0x02 of a partial tile (R334). -/
def State.partialTrap (s : State) (v : W64) (ea pitch : Nat) : Option Trap :=
  (s.badTileLine v ea pitch (s.cc.pline.getD 0)).map (fun x => ⟨6, 2, slM, x.2, x.1 + 2 ^ 15⟩)

/-- The active elements in footprint lines from_ to upto − 1. -/
def linesOf (v : W64) (from_ upto : Nat) : List (Nat × Nat) :=
  (activeElems v).filter (fun p => decide (from_ ≤ footLine (vType v) p.1 p.2) && decide (footLine (vType v) p.1 p.2 < upto))

/-- A scratchpad TLD of some elements: sampled now, landing at issue + 12. -/
def State.spLoad (s : State) (v : W64) (ea pitch : Nat) (es : List (Nat × Nat)) : State :=
  let ty := vType v
  let addrs := es.flatMap (fun p => (List.range (elemSize ty)).map (fun b => memAddr ty ea pitch p.1 p.2 + b))
  let (m, s) := s.spRead s.cur.tile s.cmember true addrs
  s.result 12 phLand slM 0 (.tile v s.cc.sysw false
    (es.flatMap (fun p => elemCells v p.1 p.2 (getElem ty ea pitch m p.1 p.2))))

/-- A scratchpad TST of some elements. -/
def State.spStore (s : State) (v : W64) (ea pitch : Nat) (es : List (Nat × Nat)) : State :=
  let ty := vType v
  let q := readTile s.cc s.ct v
  let m := es.foldl (fun m p => putElem ty ea pitch m p (q.elem p.1 p.2)) []
  let addrs := distinct (es.flatMap (fun p => (List.range (elemSize ty)).map (fun b => memAddr ty ea pitch p.1 p.2 + b)))
  s.result 12 phLand slM 0 (.scratch (addrs.map (fun a => (spPhys s.cmember a, m.byte a))))

/-- What a tile access to the scratchpad transfers before its PROT 0x02 is raised (R334). -/
def State.partialMove (s : State) (tr : Trap) (move : State → Nat → State) : State :=
  if tr.cause == 6 && bitAt tr.info2 15 then move s (tr.info2 % 512) else s

/-- The type rules and address checks of a tile access. -/
def State.tileTraps (s : State) (v : BitVec 6) (fv : Option (BitVec 6)) (ea pitch : Nat) (sp : Bool) (types : Option Trap) :
    Option Trap :=
  let w := s.cc.vreg v.toNat
  let ty := vType w
  allTraps [
    s.flagViewTrap fv, (if ty == 8 then some (illegal5 slM) else none), s.flagTypeTrap fv, types,
    (if ea % elemSize ty != 0 || pitch % elemSize ty != 0 then some (alignMem ea) else none),
    (if sp then none else s.partialTrap w ea pitch)]

/-- ILLEGAL 0x02 where the tile's footprint holds bytes of the flag view's (R462). -/
def State.sameBytes (s : State) (v : BitVec 6) (fv : Option (BitVec 6)) : Option Trap :=
  match fv with
  | none => none
  | some n =>
    let a := s.cc.vreg v.toNat
    let b := s.cc.vreg n.toNat
    if meets (vBase a) (footprint (vType a)) (vBase b) (footprint (vType b)) then some ⟨1, 2, slM, 0, 0⟩ else none

def State.tilePitch (s : State) (v : BitVec 6) (p : BitVec 5) : Nat :=
  pitchOf (s.cc.sreg p.toNat).toNat (vType (s.cc.vreg v.toNat))

def chkTld (i : Instr) (g : Guard) (v : BitVec 6) (ea : Ea) (sp : Bool) (p : BitVec 5) (fv : Option (BitVec 6)) (s : State) :
    Option Trap :=
  s.achk g (Instr.rangeTrap i slM) none none
    (orTrap (s.viewCheck slM v.toNat) (s.tileTraps v fv (s.curEa ea) (s.tilePitch v p) sp (s.sameBytes v fv)))

/-- The scratchpad form of TLD, up to footprint line `upto`. -/
def State.tldMove (v : BitVec 6) (ea : Ea) (p : BitVec 5) (s : State) (upto : Nat) : State :=
  let w := s.cc.vreg v.toNat
  s.spLoad w (s.curEa ea) (s.tilePitch v p) (linesOf w (s.cc.pline.getD 0) upto)

def State.tstMove (v : BitVec 6) (ea : Ea) (p : BitVec 5) (s : State) (upto : Nat) : State :=
  let w := s.cc.vreg v.toNat
  s.spStore w (s.curEa ea) (s.tilePitch v p) (linesOf w (s.cc.pline.getD 0) upto)

/-- A slot whose check may leave part of its work behind: the part is done first, then the trap is taken (R334). -/
def State.slotPartial (s : State) (g : Guard) (chk : Option Trap) (move : State → Nat → State) (act : State → State) : Out3 :=
  match chk with
  | some tr => .next ((s.partialMove tr move).issueTrap tr)
  | none => .next (if s.cc.guard g then act s else s)

def execTld (g : Guard) (v : BitVec 6) (ea : Ea) (sp : Bool) (p : BitVec 5) (e : BitVec 4) (fv : Option (BitVec 6)) (lu : Bool)
    (s : State) : Out3 :=
  s.slotPartial g (chkTld (.tld g v ea sp p e fv lu) g v ea sp p fv s) (State.tldMove v ea p) (fun s =>
    let a := s.curEa ea
    let w := s.cc.vreg v.toNat
    let s' := s.postIncr slM ea
    if sp then
      let c := { s'.newAsync (.tld g v ea sp p e fv lu) (some e.toNat) with
        addr := a, pitch := s.tilePitch v p, views := s.accessViews (some v) fv,
        cells := (tileAddrs w a (s.tilePitch v p)).map (fun x => ⟨x, 255, 0⟩) }
      s'.issueAccess c (fun id => .globalLoadComplete id [])
    else s'.spLoad w a (s.tilePitch v p) (linesOf w (s.cc.pline.getD 0) 512))

/-- Shapes of a TST that would write part of a byte (R461). -/
def State.oddColumns (s : State) (v : BitVec 6) : Option Trap :=
  let w := s.cc.vreg v.toNat
  if (vType w == 5 && (vCols w + 1) % 2 != 0) || (vType w == 7 && (vCols w + 1) % 8 != 0) then some (illegal5 slM) else none

def chkTst (i : Instr) (g : Guard) (v : BitVec 6) (ea : Ea) (sp : Bool) (p : BitVec 5) (fv : Option (BitVec 6)) (s : State) :
    Option Trap :=
  let w := s.cc.vreg v.toNat
  s.achk g (Instr.rangeTrap i slM) none (s.viewCheck slM v.toNat)
    (s.tileTraps v fv (s.curEa ea) (s.tilePitch v p) sp
      (orTrap (s.oddColumns v) (if sp then s.scopeTrap (tileAddrs w (s.curEa ea) (s.tilePitch v p)) else none)))

def execTst (g : Guard) (v : BitVec 6) (ea : Ea) (sp : Bool) (p : BitVec 5) (e : BitVec 4) (fv : Option (BitVec 6)) (s : State) :
    Out3 :=
  s.slotPartial g (chkTst (.tst g v ea sp p e fv) g v ea sp p fv s) (State.tstMove v ea p) (fun s =>
    let a := s.curEa ea
    let w := s.cc.vreg v.toNat
    let s' := s.postIncr slM ea
    if sp then
      let m := storeMem (readTile s.cc s.ct w) a (s.tilePitch v p)
      let c := { s'.newAsync (.tst g v ea sp p e fv) (some e.toNat) with
        addr := a, pitch := s.tilePitch v p, views := s.accessViews (some v) fv,
        cells := (tileAddrs w a (s.tilePitch v p)).map (fun x => ⟨x, 255, m.byte x⟩) }
      s'.issueAccess c .homeSliceStoreAccept
    else s'.spStore w a (s.tilePitch v p) (linesOf w (s.cc.pline.getD 0) 512))

end Sys2Proof.Machine
end

