-- ==== Sys2Proof/Machine/Atomics.lean ====
section
/-! DEFINITION. ATOM and ATOMT (R311, R463, R464), and HINT (R296, R466). -/

namespace Sys2Proof.Machine

open Sys2Proof

/-! ## The operations -/

/-- The new value of an ATOM operation on x, of n bits, with operands v and c (R463). -/
def atomOp (opc n x v c : Nat) : Nat :=
  let lt := decide (asSigned n x < asSigned n v)
  match opc with
  | 0 => (x + v) % 2 ^ n
  | 1 => Nat.land x v
  | 2 => Nat.lor x v
  | 3 => Nat.xor x v
  | 4 => if lt then x else v
  | 5 => if lt then v else x
  | 6 => min x v
  | 7 => max x v
  | 8 => v
  | _ => if x = c then v else x

/-- The new value of one element of an ATOMT (R464). -/
def atomtOp (ty opc x v : Nat) : Nat :=
  if ty = 2 then atomOp (match opc with
    | 0 => 0
    | 1 => 4
    | 2 => 5
    | 3 => 1
    | 4 => 2
    | _ => 3) 32 x v 0
  else
    let a := fp32.value x
    let b := fp32.value v
    match opc with
    | 0 => (fp32.round false (a.add b).1).1
    | 1 => (fp32.round false (a.pick false b)).1
    | _ => (fp32.round false (a.pick true b)).1

/-! ## ATOM and ATOMT at issue -/

def chkAtom (i : Instr) (g : Guard) (ea : Ea) (z : Bool) (fv : Option (BitVec 6)) (s : State) : Option Trap :=
  s.achk g (Instr.rangeTrap i slM) none none
    (allTraps [s.flagViewTrap fv, s.flagTypeTrap fv, s.elemTrap (s.curEa ea) (if z then 8 else 4) true])

/-- Accept an atomic: its lines arrive at free times, each in the line's total order (R311); the first arrival, which finds a
violation, comes less than 4,000 cycles after the issue (R295). -/
def State.issueAtomic (s : State) (c : Cmd) : State :=
  let (k, s) := s.drawFree
  { s with
    cmds := s.cmds ++ [{ c with wait := distinct (c.cells.map (fun x => x.addr / 128)) }], nextId := s.nextId + 1,
    agenda := ⟨none, s.now + 1 + k % 3999, phLand, c.seq, .atomicArrive c.id [], 0⟩ :: s.agenda }

def execAtom (g : Guard) (d : BitVec 5) (ea : Ea) (z : Bool) (opc : BitVec 4) (s1 s2 : BitVec 5) (e : BitVec 4)
    (fv : Option (BitVec 6)) (s : State) : Out3 :=
  s.slot g (chkAtom (.atom g d ea z opc s1 s2 e fv) g ea z fv s) (fun s =>
    let a := s.curEa ea
    let n := if z then 8 else 4
    let s' := s.postIncr slM ea
    s'.issueAtomic { s'.newAsync (.atom g d ea z opc s1 s2 e fv) (some e.toNat) with
      set := s.cc.sSet d.toNat, addr := a, views := s.accessViews none fv, vals := [s.cc.sreg s1.toNat, s.cc.sreg s2.toNat],
      cells := (List.range n).map (fun k => ⟨a + k, 255, 0⟩) })

def chkAtomt (i : Instr) (g : Guard) (v : BitVec 6) (ea : Ea) (p : BitVec 5) (opc : BitVec 3) (fv : Option (BitVec 6))
    (s : State) : Option Trap :=
  let ty := vType (s.cc.vreg v.toNat)
  s.achk g (Instr.rangeTrap i slM) none (s.viewCheck slM v.toNat)
    (allTraps [
      s.flagViewTrap fv,
      (if (ty == 2 || ty == 0) && !(ty == 0 && decide (3 ≤ opc.toNat)) then none else some (illegal5 slM)),
      s.flagTypeTrap fv,
      (if s.curEa ea % 4 != 0 || s.tilePitch v p % 4 != 0 then some (alignMem (s.curEa ea)) else none)])

def execAtomt (g : Guard) (v : BitVec 6) (ea : Ea) (p : BitVec 5) (opc : BitVec 3) (e : BitVec 4) (fv : Option (BitVec 6))
    (s : State) : Out3 :=
  s.slot g (chkAtomt (.atomt g v ea p opc e fv) g v ea p opc fv s) (fun s =>
    let a := s.curEa ea
    let w := s.cc.vreg v.toNat
    let q := readTile s.cc s.ct w
    let s' := s.postIncr slM ea
    s'.issueAtomic { s'.newAsync (.atomt g v ea p opc e fv) (some e.toNat) with
      addr := a, pitch := s.tilePitch v p, views := s.accessViews (some v) fv, bytes := q.bytes,
      cells := (tileAddrs w a (s.tilePitch v p)).map (fun x => ⟨x, 255, 0⟩) })

/-! ## Arrival and completion (R311) -/

/-- The new bytes of a line under an atomic, and what an ATOM returns. -/
def Cmd.atomicLine (c : Cmd) (line : Nat) (old : List Byte) : List Byte × Option Nat :=
  match c.ins with
  | .atom _ _ _ z opc _ _ _ _ =>
    let n := if z then 8 else 4
    let o := c.addr % 128
    let x := numAt old o n
    let arg (k : Nat) : Nat := ((c.vals[k]?).getD 0).toNat % 2 ^ (8 * n)
    ((numbered o (leBytes n (atomOp opc.toNat (8 * n) x (arg 0) (arg 1)))).foldl (fun l p => l.set p.1 p.2) old, some x)
  | .atomt _ _ _ _ opc _ _ =>
    let v := c.views.headD 0
    let q : TileCopy := ⟨v, c.bytes⟩
    ((activeElems v).foldl (fun l p =>
      let a := memAddr (vType v) c.addr c.pitch p.1 p.2
      if a / 128 = line then
        let o := a % 128
        (numbered o (leBytes 4 (atomtOp (vType v) opc.toNat (numAt l o 4) (q.elem p.1 p.2)))).foldl (fun l p => l.set p.1 p.2) l
      else l) old, none)
  | _ => (old, none)

/-- Apply an atomic to one line, or say that it must wait.  What later stores of its context have written there meanwhile stays, and the
atomic does not see it (R308).  Elements in a non-resident page are skipped and flagged; the bytes
that it changes in a line of another package are a store to that package (log entry 2). -/
def State.applyAtomic (s : State) (c : Cmd) (x : LineAt) (remote : Table Byte) : Option (Cmd × State) :=
  if x.absent || suppliedAbsent remote x.line then some ({ c with flags := x.line :: c.flags }, s.absentNow c x true)
  else if x.remote then
    (if supplied remote x.line then
      let old := Mem.bytes remote (128 * x.line) 128
      let (new, r) := c.atomicLine x.line old
      let cells := (List.range 128).filterMap (fun o =>
        if new[o]? == old[o]? then none else some (128 * x.line + o, (new[o]?).getD 0))
      some ({ c with vals := c.vals ++ (r.toList.map (.ofNat 64)) }, s.emit (.remoteWrite (128 * x.line) cells none))
    else none)
  else if s.dramBusy x.die x.ln x.bs then none
  else
    let old := (s.die x.die).lineWithout x.ln c.fset
    let later := (s.die x.die).writtenBy x.ln c.fset
    let (new, r) := c.atomicLine x.line old
    let cells := (List.range 128).filterMap (fun o =>
      if new[o]? == old[o]? || later.contains o then none else some (o, (new[o]?).getD 0, writerOf c.field c.rel, c.seq))
    some ({ c with vals := c.vals ++ (r.toList.map (.ofNat 64)) }, s.lineWrite x.die x.ln x.bs 0 cells)

/-- Serve a line of a load or an atomic at its home slice, past the stash: none while it must wait. -/
def State.serveDirect (s : State) (c : Cmd) (x : LineAt) : Option (Cmd × State) :=
  (if c.isAtomic then s.applyAtomic c x [] else (s.homeBytes c x []).map (fun (bs, s) => (c.take x.line bs, s))).map
    (fun (c, s) => ({ c with wait := c.wait.filter (· != x.line) }, s))

/-- Keep a command of which a line has been served; the completion of an atomic follows its last line. -/
def State.putServed (s : State) (c : Cmd) : State :=
  let s := s.putCmd c
  if c.isAtomic && c.wait.isEmpty then s.later c.seq 0 (.atomicComplete c.id) else s

/-- Loads and atomics that waited in a channel for its session, while later stores of their contexts went ahead of them, are served as
it closes, before anything else of their lines (R98, R308). -/
def State.serveHeld (s : State) (pch : Nat) : State :=
  (s.cmds.filter (fun c => (c.isLoad || c.isAtomic) && !c.fset.isEmpty)).foldl (fun s c =>
    (c.xl.filter (fun x => !x.remote && !x.absent && pchOf x.die (128 * x.ln) == pch)).foldl (fun s x =>
      match s.cmd c.id with
      | none => s
      | some c =>
        if !c.wait.contains x.line then s
        else match s.serveDirect c x with
          | none => s
          | some (c, s) => s.putServed c) s) s

/-- ATOMIC_ARRIVE: the next line of an atomic, in issue order with the context's other accesses to it (R308, R311); after the
last, the completion follows a free time later. -/
def execAtomicArrive (id : Nat) (remote : Table Byte) (s : State) : Out3 :=
  match s.cmd id with
  | none => .next s
  | some c =>
    if !c.isAtomic || c.viol.isSome || (c.made && c.wait.isEmpty) then .next s
    else
      let (c, s) := if c.made then (c, s) else s.placeLines c true noPass c.wait
      if c.viol.isSome then .next (s.reportViol c)
      else if !c.made then .next ((s.putCmd c).later c.seq 1 (.atomicArrive id []))
      else
        let left := c.xl.filter (fun x => c.wait.contains x.line && (!x.remote || supplied remote x.line))
        let (k, s) := s.drawFree
        let (c, s) :=
          match left[k % left.length]? with
          | none => (c, s)
          | some x =>
            match (if s.blocked c x.line then none else s.applyAtomic c x remote) with
            | some (c, s) => ({ c with wait := c.wait.filter (· != x.line) }, s)
            | none => (c, s)
        let s := s.putCmd c
        .next (if c.wait.isEmpty then s.later c.seq 0 (.atomicComplete id)
          else if c.xl.any (fun x => c.wait.contains x.line && !x.remote) then s.later c.seq 1 (.atomicArrive id []) else s)

/-- ATOMIC_COMPLETE: the returned value and the flags are written, and the event counts (R463, R464). -/
def execAtomicComplete (id : Nat) (s : State) : Out3 :=
  match s.cmd id with
  | none => .next s
  | some c =>
    if !c.made || !c.wait.isEmpty then .next s
    else
      match c.ins with
      | .atom _ d _ _ _ _ _ _ fv =>
        let x := (c.vals[2]?).getD 0
        .next ((((s.modCmd c (·.putS c.set d.toNat x)).putAccess c (c.flagWrite fv none))).complete c)
      | .atomt _ _ _ _ _ _ fv => .next ((s.putAccess c (c.flagWrite fv (some (c.views.headD 0)))).complete c)
      | _ => .next s

/-! ## HINT (R296, R466) -/

/-- Accept a hint: its lines are acted on at free times. -/
def State.hint (s : State) (i : Instr) (ea : Ea) (cnt : Byte) (ev : Option (BitVec 4)) : State :=
  let first := s.curEa ea / 128
  let s' := s.postIncr slM ea
  s'.async { s'.newAsync i (ev.map (·.toNat)) with
    wait := (List.range (cnt.toNat + 1)).map (fun k => (first + k) % 2 ^ 57),
    maps := (List.range 4).map (fun k => s.cc.stmap.rd 0 k) } (fun id => .hintComplete ⟨id, []⟩)

def execHintReq (g : Guard) (ea : Ea) (cnt : Byte) (ev : Option (BitVec 4)) (s : State) : Out3 :=
  s.slot g (s.achk g (Instr.rangeTrap (.hintReq g ea cnt ev) slM) none none none) (fun s => s.hint (.hintReq g ea cnt ev) ea cnt ev)
def execHintFill (g : Guard) (ea : Ea) (cnt : Byte) (ev : Option (BitVec 4)) (s : State) : Out3 :=
  s.slot g (s.achk g (Instr.rangeTrap (.hintFill g ea cnt ev) slM) none none none) (fun s => s.hint (.hintFill g ea cnt ev) ea cnt ev)
def execHintDrop (g : Guard) (ea : Ea) (cnt : Byte) (ev : Option (BitVec 4)) (s : State) : Out3 :=
  s.slot g (s.achk g (Instr.rangeTrap (.hintDrop g ea cnt ev) slM) none none none) (fun s => s.hint (.hintDrop g ea cnt ev) ea cnt ev)
def execHintL2 (g : Guard) (ea : Ea) (cnt : Byte) (ev : Option (BitVec 4)) (s : State) : Out3 :=
  s.slot g (s.achk g (Instr.rangeTrap (.hintL2 g ea cnt ev) slM) none none none) (fun s => s.hint (.hintL2 g ea cnt ev) ea cnt ev)

/-- Fetch a line into its home slice (R466): the slice holds a clean copy.  None while a session holds the channel, or the slice has no
room. -/
def State.fetchL2 (s : State) (die ln : Nat) : Option State :=
  let d := s.die die
  if (d.l2.find ln).isSome then some s
  else if s.dramBusy die ln false then none
  else
    let (ok, s) := (s.clearU die ln false).l2Put die ln (d.line ln) false
    if ok then some s else none

/-- What a hint finds of a line (R296): a protected one is dropped and sets hstat.HPROT, a non-resident one becomes a page request
unless its page has one from this hint; else it goes on, or waits for its translation. -/
def State.hintFinds (s : State) (c : Cmd) (line : Nat) (x : Xl) (go : State → Option (Cmd × State)) : Option (Cmd × State) :=
  match x with
  | .viol => some (c, s.modCmd c (fun x => { x with hstat := x.hstat ||| 1 }))
  | .absent =>
    some ({ c with flags := line / 512 :: c.flags },
      if c.flags.contains (line / 512) then s else s.requestFor c.field c.rel (128 * line) false false true)
  | .busy => none
  | _ => go s

/-- Another package's translation of a line, as `fate` says. -/
def State.hintFate (s : State) (x : Xl) : Xl × State :=
  if x != .remote then (x, s)
  else
    let (k, s) := s.fate
    (match k with
      | .fine => .remote
      | .absent => .absent
      | .viol => .viol, s)

/-- A translated line of a hint: fill it into its map, or fetch it into its home slice.  A line of another package that fills a slot
comes as the outside supplies it. -/
def State.hintAct (s : State) (c : Cmd) (remote : Table Byte) (line : Nat) : Option (Cmd × State) :=
  let map := s.stashMap c line
  let held := s.heldFor c line
  let at_ := s.translate (whoOf c.sys) false (128 * line)
  let plain (go : Xl → State → Option (Cmd × State)) : Option (Cmd × State) :=
    let r := at_.2.hintFate at_.1
    r.2.hintFinds c line r.1 (go r.1)
  let fetch : Option (Cmd × State) := plain (fun x s =>
    match x with
    | .home d p _ _ _ => (s.fetchL2 d (p / 128)).map (fun s => (c, s))
    | _ => some (c, s.emit (.remoteFill (128 * line))))
  match c.ins with
  | .hintReq .. => plain (fun _ s => some (c, s))
  | .hintFill .. =>
    (match map with
    | none => fetch
    | some (k, m) =>
      if held.isSome then plain (fun _ s => some (c, s))
      else
        let fill (s : State) (bs : List Byte) (w u : Bool) : State :=
          (s.vacate c.tile c.hw k (m.slot line)).fillSlot c.tile c.hw k line bs w u
        let x : Xl := if at_.1 != .remote then at_.1
          else if suppliedAbsent remote line then .absent
          else if suppliedViol remote line then .viol
          else .remote
        at_.2.hintFinds c line x (fun s =>
          match x with
          | .home d p w u _ =>
            if s.dramBusy d (p / 128) false then none
            else some (c, fill (s.clearU d (p / 128) false) ((s.die d).readLine (p / 128) (writerOf c.field c.rel)) w u)
          | _ =>
            let (w, u) := suppliedRights remote line false c.sys
            if supplied remote line then some (c, fill s (Mem.bytes remote (128 * line) 128) w u) else none))
  | .hintDrop .. =>
    plain (fun _ s =>
      match map, held with
      | some (k, m), some l =>
        let id := s.nextId
        let s := (s.writeBack c.tile c.hw m l).modCtx c.tile c.hw (·.empty (fun y => y.map == k && y.line == line))
        some (if l.dirty.isEmpty then c else { c with fset := id :: c.fset }, s)
      | _, _ => some (c, s))
  | _ => fetch

/-- HINT_COMPLETE: the next line of a hint, in any order; the event counts when its fills have landed, its write-backs are
accepted and its requests are recorded. -/
def execHintComplete (x : Answer) (s : State) : Out3 :=
  match s.cmd x.id with
  | none => .next s
  | some c =>
    if !c.isHint then .next s
    else
      let (k, s) := s.drawFree
      let (c, s) :=
        match c.wait[k % c.wait.length]? with
        | none => (c, s)
        | some l =>
          match (if s.blocked c l then none else s.hintAct c x.remote l) with
          | some (c, s) => ({ c with wait := c.wait.erase l }, s)
          | none => (c, s)
      let busy := c.fset.any (fun w => (s.cmd w).isSome)
      .next (if c.wait.isEmpty && !busy then (s.putCmd c).complete c
        else (s.putCmd c).later c.seq 1 (.hintComplete ⟨x.id, []⟩))

end Sys2Proof.Machine
end

