-- ==== Sys2Proof/Machine/Fence.lean ====
section
/-! DEFINITION. FENCE and VJOIN (R314, R315, R319, R478, R479), and TLBINV (R293, R480). -/

namespace Sys2Proof.Machine

open Sys2Proof

/-! ## FENCE -/

/-- Bits of a FENCE's sets (R478). -/
def hasC (x : BitVec 5) : Bool := bitAt x.toNat 4
def hasK (x : BitVec 5) : Bool := bitAt x.toNat 3
def hasB (x : BitVec 5) : Bool := bitAt x.toNat 2
def hasL (x : BitVec 5) : Bool := bitAt x.toNat 1

def chkFence (i : Instr) (s : State) : Option Trap := s.achk ⟨false, 0⟩ (Instr.rangeTrap i slM) none none none

/-- The dirty lines of a context's stash. -/
def Ctx.dirtyLines (c : Ctx) : List Nat := (c.stash.filter (fun l => !l.dirty.isEmpty)).map (·.line)

/-- What a FENCE with C in X captures: the context's stores that are still to be accepted, and the lines whose dirty bytes
only its stash holds. -/
def State.capture (s : State) (c : Cmd) : Cmd :=
  let mine := s.cmds.filter (fun x => x.isStore && x.field == c.field && x.rel == c.rel)
  { c with
    fset := mine.map (·.id),
    flags := distinct (s.cc.dirtyLines ++ (mine.filter (fun x => !x.isWriteBack)).flatMap (fun x =>
      x.wait.filter (fun l => (x.mapOf l).isSome))) }

/-- The commands of classes K and L of the issuing context whose completion is still to be counted. -/
def State.openCopies (s : State) : List Nat :=
  (s.cmds.filter (fun x => x.field == s.cf && x.rel == s.relOf s.cur.tile s.cur.hw)).map (·.seq)
    ++ (s.ct.link.filter (fun x => x.hw == s.cur.hw)).map (·.seq)

def execFence (g : Guard) (x y : BitVec 5) (e : BitVec 4) (s : State) : Out3 :=
  s.slot g (chkFence (.fence g x y e) s) (fun s =>
    let c := s.newAsync (.fence g x y e) (some e.toNat)
    let c := if hasC x then s.capture c else c
    s.async { c with vals := s.openCopies.map (.ofNat 64) } .fenceComplete)

/-- A committed write that a FENCE has captured and that HBM4 still lacks. -/
def Cmd.fenced (c : Cmd) (x : BitVec 5) (b : Late) : Bool :=
  b.writer == writerOf c.field c.rel
    && (match b.cls with
      | 0 => hasC x && (decide (b.seq < c.seq) || c.fset.contains b.seq)
      | 1 => hasK x && decide (b.seq < c.seq) && !c.vals.contains (.ofNat 64 b.seq)
      | 2 => hasL x && decide (b.seq < c.seq) && !c.vals.contains (.ofNat 64 b.seq)
      | _ => false)

/-- A captured write lies in a channel that a session holds: its way to HBM4 waits (R98). -/
def State.fenceHeld (s : State) (c : Cmd) (x : BitVec 5) : Bool :=
  (List.range 4).any (fun k => (s.die k).late.any (fun b => c.fenced x b && s.lineHeld k b.line))

/-- The captured stores have reached the point that class B reads from: they are committed, here and at the span's other packages. -/
def State.committed (s : State) (c : Cmd) : Bool :=
  let mine (writer seq : Nat) : Bool := writer == writerOf c.field c.rel && (decide (seq < c.seq) || c.fset.contains seq)
  (List.range 4).all (fun k => !(s.die k).pend.any (fun b => mine b.writer b.seq)) && !s.away.any (fun a => mine a.2.2.1 a.2.2.2)

/-- Write back every dirty line of a context's maps; the answer is the write-backs' ids. -/
def State.writeBackMaps (s : State) (t h : Nat) : List Nat × State :=
  let first := s.nextId
  let s := (List.range 4).foldl (fun s k =>
    let c := s.ctx t h
    s.writeBackAll t h (c.map k) (c.stash.filter (·.map == k))) s
  ((List.range (s.nextId - first)).map (· + first), s)

/-- FENCE_COMPLETE: the event counts when every captured write has reached the points of R315.  With C in Y the context's
stash lines are written back first, and its maps emptied before the event counts. -/
def execFenceComplete (id : Nat) (s : State) : Out3 :=
  match s.cmd id with
  | none => .next s
  | some c =>
    match c.ins with
    | .fence _ x y _ =>
      let cx := s.ctx c.tile c.hw
      let flags := c.flags.filter (fun l => cx.dirtyLines.contains l || c.awaits s.cmds l)
      let c := { c with flags := flags }
      let wait (s : State) : State := s.later c.seq 1 (.fenceComplete id)
      if c.fset.any (fun w => (s.cmd w).isSome) then .next (wait (s.putCmd c))
      else if hasC y && !cx.dirtyLines.isEmpty then
        let (ids, s) := (s.putCmd c).writeBackMaps c.tile c.hw
        .next (wait (s.putCmd { c with flags := [], fset := ids ++ c.fset }))
      else if y.toNat != 1 && !c.flags.isEmpty then .next (wait (s.putCmd c))
      else if hasB y && hasC x && !s.committed c then .next (wait (s.putCmd c))
      else if hasB y && s.fenceHeld c x then .next (wait (s.putCmd c))
      else
        let s := if hasB y then s.drainDies (c.fenced x) else s
        let s := if hasC y then s.modCtx c.tile c.hw (·.empty (fun _ => true)) else s
        .next (s.complete c)
    | _ => .next s

/-! ## VJOIN (R319, R479) -/

/-- Order the scratchpad of a member: writes before the join before that are ordered for every reader. -/
def Tile.vjoin (t : Tile) (now member : Nat) (grouped : Bool) : Tile :=
  let old := t.joinAt.rd 0 member
  { t with
    unjoined := t.unjoined.filter (fun u => !(decide (u.land < old) && (!grouped || u.line / 24576 == member))),
    joinAt := t.joinAt.wr 0 member now }

def execVjoin (g : Guard) (s : State) : Out3 :=
  s.slot g none (fun s => s.modCT (fun t => t.vjoin s.now s.cmember s.cgrouped))

/-! ## TLBINV (R480) -/

/-- sG names a die of the torus. -/
def State.dieTrap (s : State) (a : Nat) : Option Trap :=
  if decide (2 ^ 60 ≤ a) || decide (s.pkgCount ≤ vPkg a) then some (illegal5 slM) else none

def chkTlbinv (g : Guard) (gs n : BitVec 5) (s : State) : Option Trap :=
  let a := (s.cc.sreg gs.toNat).toNat
  let k := (s.cc.sreg n.toNat).toNat
  s.achk g (s.sysTrap slM 0x14)
    (orTrap (s.dieTrap a) (if decide (2 ^ 32 ≤ k) || decide (2 ^ 48 < vOff a + 65536 * k) then some (illegal5 slM) else none))
    none (if a % 65536 != 0 then some (alignMem a) else none)

def execTlbinv (g : Guard) (gs n : BitVec 5) (e : BitVec 4) (s : State) : Out3 :=
  s.slot g (chkTlbinv g gs n s) (fun s =>
    s.async { s.newAsync (.tlbinv g gs n e) (some e.toNat) with
      addr := (s.cc.sreg gs.toNat).toNat, prog := (s.cc.sreg n.toNat).toNat } .tlbInvalidateDone)

def chkTlbinvDie (g : Guard) (gs : BitVec 5) (s : State) : Option Trap :=
  s.achk g (s.sysTrap slM 0x14) (s.dieTrap (s.cc.sreg gs.toNat).toNat) none none

def execTlbinvDie (g : Guard) (gs : BitVec 5) (e : BitVec 4) (s : State) : Out3 :=
  s.slot g (chkTlbinvDie g gs s) (fun s =>
    s.async { s.newAsync (.tlbinvDie g gs e) (some e.toNat) with addr := (s.cc.sreg gs.toNat).toNat, prog := 2 ^ 32 }
      .tlbInvalidateDone)

/-- An entry that maps any byte of n pages from page `first` on; of none, when n = 0. -/
def TlbEntry.inRange (e : TlbEntry) (first n : Nat) : Bool :=
  decide (0 < n) && meets (65536 * first) (65536 * n) (2 ^ (levelBits e.level).1 * e.index) (2 ^ (levelBits e.level).1)

/-- TLB_INVALIDATE_DONE: the home die's cached entries of the range, or all of them, are gone (R293). -/
def execTlbInvalidateDone (id : Nat) (s : State) : Out3 :=
  match s.cmd id with
  | none => .next s
  | some c =>
    let all := match c.ins with
      | .tlbinvDie .. => true
      | _ => false
    let first := vOff c.addr / 65536
    let s := if vPkg c.addr = s.pkgNum then
        s.modDie (vDie c.addr) (fun d => { d with
          tlb := d.tlb.filter (fun e => !(all || e.inRange first c.prog)) })
      else s
    .next (s.complete c)

end Sys2Proof.Machine
end

