-- ==== Sys2Proof/Machine/Copy.lean ====
section
/-! DEFINITION. The copy engine: CPY (R467 to R469), CPYZ and offload images (R284 to R287, R470), and the copying of global
bytes that COPY packets share with them. -/

namespace Sys2Proof.Machine

open Sys2Proof

/-! ## Descriptors in register space (R458) -/

/-- A descriptor of n bytes at `base` of register space: ALIGN 0x01 unless 16-byte aligned, PROT 0x01 where it is out of reach. -/
def State.descAlign (base : Nat) : Option Trap := if base % 16 != 0 then some (alignView slM base) else none

def State.descProt (s : State) (base n : Nat) : Option Trap :=
  firstTrap [
    (decide (0x40000 < base + n), ⟨6, 1, slM, max base 0x40000, 0⟩),
    (!s.cc.sys && decide (base < 0x20000) && decide (0x10000 < base + n), ⟨6, 1, slM, max base 0x10000, 0⟩),
    (decide (0x20000 < base + n) && (s.badEntry ((max base 0x20000 - 0x20000) / 2048) ((base + n - 0x20000 + 2047) / 2048
        - (max base 0x20000 - 0x20000) / 2048)).isSome,
      protEntry slM ((s.badEntry ((max base 0x20000 - 0x20000) / 2048) 64).getD 0))]

/-- The bytes of a descriptor. -/
def State.descBytesAt (s : State) (base n : Nat) : List Byte := regBytes s.cc s.ct base n

def State.descBase (s : State) (r : BitVec 5) : Nat := (s.cc.sreg r.toNat).toNat % 2 ^ 18

/-! ## Global bytes of class K (R314, R468) -/

/-- Bytes on their way to their home slice try again in the next cycle. -/
def State.arriveLater (s : State) (x : Inbound) : State := { s with inputs := ⟨s.now + 1, [], [], [x], none⟩ :: s.inputs }

/-- Translations of the lines of one chunk. -/
abbrev Lines := List (Nat × Xl)

def Lines.get (l : Lines) (line : Nat) : Xl := ((l.find? (fun e => e.1 == line)).map (·.2)).getD .absent

/-- Translate lines; a read of one that its slice does not hold clears its row's U tag (R84), and a write finds of another package's
line what that package's translation gives (log entry 2). -/
def State.xlLines (s : State) (who : Who) (write : Bool) : List Nat → Lines × State
  | [] => ([], s)
  | l :: ls =>
    let (x, s) := s.translate who write (128 * l)
    let (x, s) : Xl × State := match x with
      | .home d p _ _ _ => (x, if write || s.dramBusy d (p / 128) false then s else s.clearU d (p / 128) false)
      | .remote =>
        if !write then (x, s)
        else
          let (k, s) := s.fate
          (match k with
            | .fine => .remote
            | .absent => .absent
            | .viol => .viol, s)
      | _ => (x, s)
    let (r, s) := State.xlLines s who write ls
    ((l, x) :: r, s)

/-- Some line of a chunk must wait for its channel (R98). -/
def State.linesBusy (s : State) (l : Lines) (write : Bool) : Bool :=
  l.any (fun e => match e.2 with
    | .home d p _ _ bs => s.dramBusy d (p / 128) (write && bs)
    | .busy => true
    | _ => false)

/-- Some line of a chunk lies on another package and is not supplied yet. -/
def Lines.missing (l : Lines) (remote : Table Byte) : Bool :=
  l.any (fun e => e.2 == .remote && !supplied remote e.1)

/-- What the outside supplies of lines of other packages: their bytes, or that they are non-resident or protected. -/
def Lines.settle (l : Lines) (remote : Table Byte) : Lines :=
  l.map (fun e =>
    if e.2 != .remote then e
    else if suppliedAbsent remote e.1 then (e.1, .absent)
    else if suppliedViol remote e.1 then (e.1, .viol)
    else e)

/-- A committed byte through its line's translation; a violating byte is not read. -/
def State.kByte (s : State) (l : Lines) (remote : Table Byte) (a : Nat) : Option Byte :=
  match l.get (a / 128) with
  | .home d p _ _ _ => some ((((s.die d).line (p / 128))[a % 128]?).getD 0)
  | .remote => some (remote.rd 0 a)
  | .absent => some 0
  | .viol => none
  | .busy => none

/-- What a chunk's accesses leave in the command: NONRES, PROT, and their lowest addresses (R469). -/
def Cmd.note (c : Cmd) (l : Lines) (addrs : List Nat) : Cmd :=
  let non := addrs.filter (fun a => l.get (a / 128) == .absent)
  let bad := addrs.filter (fun a => l.get (a / 128) == .viol)
  let low (o : Option Nat) (xs : List Nat) : Option Nat := (xs ++ o.toList).min?
  { c with
    status := Nat.lor c.status (b2n (!non.isEmpty) + 2 * b2n (!bad.isEmpty)),
    lowest := low c.lowest (non ++ bad), viol := low c.viol bad }

/-- Each non-resident page of a chunk becomes a page request. -/
def State.chunkRequests (s : State) (f rel : Nat) (l : Lines) (write : Bool) : State :=
  (distinct ((l.filter (fun e => e.2 == .absent)).map (fun e => e.1 / 512))).foldl
    (fun s pg => s.requestFor f rel (65536 * pg) write false false) s

/-- Write bytes at global addresses through their lines' translations, of a path class, a writer and a command: each commits as it is
written (R314); a line whose translation waits for a channel is written as soon as it is made (R98). -/
def State.kWrite (s : State) (l : Lines) (cls writer seq : Nat) (cells : List (Nat × Byte)) : State :=
  l.foldl (fun s e =>
    let mine := cells.filter (fun c => c.1 / 128 == e.1)
    match e.2 with
    | .home d p _ _ bs =>
      s.lineWrite d (p / 128) bs cls (mine.map (fun c => (c.1 % 128, c.2, writer, seq)))
    | .remote => s.emit (.remoteWrite (128 * e.1) mine none)
    | .busy => s.arriveLater ⟨128 * e.1, writer, mine.map (fun c => (c.1 % 128, c.2)), none, cls, some seq, false⟩
    | _ => s) s

def linesOfAddrs (addrs : List Nat) : List Nat := distinct (addrs.map (· / 128))

/-! ## CPY -/

def copyShape (b : List Byte) : CopyShape :=
  ⟨numAt b 0 8, numAt b 8 8, numAt b 16 4, numAt b 20 4, numAt b 24 4, numAt b 32 8, numAt b 40 8, numAt b 48 8, numAt b 56 8⟩

/-- The first addresses of the runs of one side. -/
def CopyShape.runs (c : CopyShape) (dst : Bool) : List Nat :=
  (List.range (c.n1 * c.n2)).map (fun r => if dst then (c.at (r * c.n0)).2 else (c.at (r * c.n0)).1)

/-- The lowest scratchpad offset of [a, a + n), below 2^64, that the issuing context may not reach. -/
def State.badSp (s : State) (a n : Nat) : Option Nat :=
  let one (a n : Nat) : List Nat :=
    (if s.spLimit < a + n then [max a s.spLimit] else [])
      ++ (List.range 4).flatMap (fun h =>
        let c := s.ctx s.cur.tile h
        if c.field == some s.cf then
          (List.range 4).filterMap (fun k =>
            let m := c.map k
            let lo := 128 * m.sline
            if m.en && meets a n lo (128 * 2 ^ m.ssz) then some (max a lo) else none)
        else [])
  (if 2 ^ 64 < a + n then one a (2 ^ 64 - a) ++ one 0 (a + n - 2 ^ 64) else one a n).min?

/-- The lowest unreachable scratchpad offset of one side of a copy. -/
def State.badSide (s : State) (c : CopyShape) (sp : BitVec 2) (dst : Bool) : List Nat :=
  if sp = 1 then (c.runs dst).filterMap (fun a => s.badSp a c.n0) else []

def CopyShape.badWeight (c : CopyShape) (sp : BitVec 2) (dst : Bool) : Bool :=
  sp == 2 && (c.runs dst).any (fun a => decide (2 ^ 25 < a + c.n0))

/-- Address bits that a space wants zero. -/
def badSpaceAddr (sp : BitVec 2) (a : Nat) : Bool :=
  (sp == 1 && decide (2 ^ 32 ≤ a)) || (sp == 2 && decide (2 ^ 25 ≤ a))

def chkCpy (g : Guard) (dr : BitVec 5) (ssp dsp : BitVec 2) (s : State) : Option Trap :=
  let base := s.descBase dr
  let b := s.descBytesAt base 64
  let c := copyShape b
  s.achk g none
    (if decide (c.total = 0) || decide (2 ^ 40 < c.total) || numAt b 28 4 != 0 || badSpaceAddr ssp c.src || badSpaceAddr dsp c.dst
        || c.badWeight ssp false || c.badWeight dsp true then some (illegal5 slM) else none)
    none
    (allTraps [
      State.descAlign base, s.descProt base 64,
      ((s.badSide c ssp false ++ s.badSide c dsp true).min?).map (protScratch slM)])

def stagingAddr (s : State) (o : Nat) : Nat := (s.hport.stgBase.toNat + o % 2 ^ 32) % 2 ^ 64

/-- A write of BAR4 to one of some global lines has reached the device and waits for its translation (R98, R128). -/
def State.stagePending (s : State) (lines : List Nat) : Bool := s.hport.stgWait.any (fun c => lines.contains (c.1 / 128))

/-- Something of the copy engine happens at the given cycle, in the given phase (R271). -/
def State.copyAt (s : State) (phase at_ seq : Nat) (ev : Instr) : State := s.atSeq none at_ phase seq ev

/-- A chunk, which takes the copy port, a free number of cycles after `wait`. -/
def State.copyLater (s : State) (c : Cmd) (wait : Nat) (ev : Instr) : State :=
  let (k, s) := s.drawFree
  s.copyAt phCopy (s.now + wait + k) c.seq ev

/-- Accept a command of the copy engine. -/
def State.asyncCopy (s : State) (c : Cmd) (ev : Instr) : State :=
  ({ s with cmds := s.cmds ++ [c], nextId := s.nextId + 1 }).copyLater c 1 ev

def execCpy (g : Guard) (dr : BitVec 5) (ssp dsp : BitVec 2) (e : BitVec 4) (ui : Bool) (d : BitVec 5) (s : State) : Out3 :=
  s.slot g (chkCpy g dr ssp dsp s) (fun s =>
    let c := copyShape (s.descBytesAt (s.descBase dr) 64)
    let src := if ssp = 3 then stagingAddr s c.src else c.src
    let dst := if dsp = 3 then stagingAddr s c.dst else c.dst
    s.asyncCopy { s.newAsync (.cpy g dr ssp dsp e ui d) (some e.toNat) with
      set := s.cc.sSet d.toNat,
      vals := [src, dst, c.n0, c.n1, c.n2, c.ss1, c.ss2, c.ds1, c.ds2].map (.ofNat 64) } (.cpyComplete s.nextId []))

def Cmd.isCopy (c : Cmd) : Bool :=
  match c.ins with
  | .cpy .. => true
  | .cpyzSt .. => true
  | .cpyzLd .. => true
  | .copy => true
  | _ => false

/-- The copy engine of a tile serves COPY, CPY and CPYZ one at a time, in the order in which they reach it (R127, R468). -/
def State.copyTurn (s : State) (c : Cmd) : Bool :=
  s.cmds.all (fun x => !(x.isCopy && x.tile == c.tile && decide (x.seq < c.seq)))

/-- One side of a chunk as bytes of a tile's memories, `m` what the scratchpad's sampled lines hold, or of global memory.  A copy reads what
it has written itself of a unit of the weight die that is not yet whole. -/
def State.copyRead (s : State) (c : Cmd) (sp : BitVec 2) (m : Mem) (l : Lines) (remote : Table Byte) (a : Nat) : Option Byte :=
  if sp = 1 then some (m.byte a)
  else if sp = 2 then
    some (match (c.cells.filter (fun m => m.addr == a && !c.fset.contains a)).getLast? with
      | some m => m.val
      | none => (s.tile c.tile).weight.byte a)
  else s.kByte l remote a

/-- Write the bytes of a chunk to the weight die: a 16-byte unit that the copy has more bytes for waits for them, and is written whole
(R443); a byte that a later command of the context has written meanwhile keeps its value (R452). -/
def State.copyUnits (s : State) (c : Cmd) (cells : List (Nat × Byte)) : Cmd × State :=
  let all := c.cells ++ cells.map (fun x => ⟨x.1, 255, x.2⟩)
  let later (m : MaskedByte) : Bool := c.shape.writesFrom (128 * (c.prog + 1)) (m.addr / 16 * 16) 16
  let now := (all.filter (fun m => !later m && !c.fset.contains m.addr)).map (fun m => (m.addr, m.val))
  ({ c with cells := all.filter later }, s.modTile c.tile (fun t => { t with weight := t.weight.setCells now }))

def State.copyWrite (s : State) (c : Cmd) (sp : BitVec 2) (l : Lines) (cells : List (Nat × Byte)) : State :=
  if sp = 1 then
    s.modTile c.tile (fun t => t.spWrite s.now false (cells.map (fun x => (spPhys (s.field c.field).member x.1, x.2))))
  else s.kWrite l 1 (writerOf c.field c.rel) c.seq cells

def isGlobalSpace (sp : BitVec 2) : Bool := sp == 0 || sp == 3

/-- Move one chunk of a copy: read it, then write it; none while it must wait. -/
def State.copyChunk (s : State) (c : Cmd) (ssp dsp : BitVec 2) (remote : Table Byte) : Option (Cmd × State) :=
  let sh := c.shape
  let ps := (List.range (min 128 (sh.total - 128 * c.prog))).map (fun k => sh.at (128 * c.prog + k))
  let sa := ps.map (·.1)
  let da := ps.map (·.2)
  let (sl, s) := s.xlLines (whoOf c.sys) false (if isGlobalSpace ssp then linesOfAddrs sa else [])
  let (dl, s) := s.xlLines (whoOf c.sys) true (if isGlobalSpace dsp then linesOfAddrs da else [])
  if sl.missing remote || s.linesBusy sl false || s.linesBusy dl true || (dsp == 2 && da.any (s.weightBefore c)) then none
  else
    let sl := sl.settle remote
    let c := if isGlobalSpace ssp then c.note sl sa else c
    let c := if isGlobalSpace dsp then c.note dl da else c
    let s := (s.chunkRequests c.field c.rel sl false).chunkRequests c.field c.rel dl true
    let (m, s) := s.spRead c.tile (s.field c.field).member false (if ssp = 1 then sa else [])
    let cells := ps.filterMap (fun p => (s.copyRead c ssp m sl remote p.1).map (fun b => (p.2, b)))
    let (c, s) := if dsp = 2 then s.copyUnits c cells else (c, s.copyWrite c dsp dl cells)
    some ({ c with prog := c.prog + 1 }, s)

/-- The completion word (R469). -/
def Cmd.word (c : Cmd) : W64 :=
  .ofNat 64 (c.status % 16 + (match c.lowest with
    | some a => a / 65536 * 65536
    | none => 0))

/-- The completion of a CPY or CPYZ: its word, its event, a user-interrupt request, and PROT 0x03 for violating bytes (R468,
R469). -/
def State.finishCopy (s : State) (c : Cmd) (d : BitVec 5) (ui : Bool) : State :=
  let s := (s.modCmd c (fun x =>
    let x := x.putS c.set d.toNat c.word
    if ui then x.uiRequest s.now else x)).complete c
  match c.viol with
  | some a => s.modCmd c (·.report s.now c.seq (some c.pc) ⟨6, 3, slM, a, 0⟩)
  | none => s

/-- CPY_COMPLETE: the next chunk of a copy; after the last, the completion, among the results of its cycle. -/
def execCpyComplete (id : Nat) (remote : Table Byte) (s : State) : Out3 :=
  match s.cmd id with
  | none => .next s
  | some c =>
    match c.ins with
    | .cpy _ _ ssp dsp _ ui d =>
      if c.shape.total ≤ 128 * c.prog then .next (s.finishCopy c d ui)
      else if !s.copyTurn c then .next (s.copyLater c 1 (.cpyComplete id []))
      else
        (match s.copyChunk c ssp dsp remote with
        | none => .next (s.copyLater c 1 (.cpyComplete id []))
        | some (c, s) =>
          let s := s.putCmd c
          .next (if c.shape.total ≤ 128 * c.prog then s.copyAt phLand s.now c.seq (.cpyComplete id [])
            else s.copyLater c 0 (.cpyComplete id [])))
    | _ => .next s

/-! ## CPYZ -/

/-- Bytes per element of a type that CPYZ moves. -/
def cpyzSize (ty : Nat) : Option Nat :=
  if ty = 4 || ty = 6 then some 1 else if ty = 1 || ty = 9 || ty = 3 then some 2 else if ty = 0 || ty = 2 then some 4 else none

/-- The image of a tile (R284), padded to whole units. -/
def offloadImage (q : TileCopy) : List Byte :=
  let z := (cpyzSize (vType q.view)).getD 1
  let live := (List.range 1024).map (fun k =>
    if vActive q.view (k / 64) (k % 64) then q.elem (k / 64) (k % 64) else 0)
  let bitmap := (List.range 128).map (fun b =>
    BitVec.ofNat 8 (sumNat ((List.range 8).map (fun j => if (live[8 * b + j]?).getD 0 = 0 then 0 else 2 ^ j))))
  let body := (live.filter (· != 0)).flatMap (leBytes z)
  bitmap ++ bytesAt body 0 (roundUp body.length 128)

structure ZDesc where
  slot  : Nat
  table : Nat
  pool  : Nat
  s     : Nat
  rest  : Nat

def zDesc (b : List Byte) : ZDesc := ⟨numAt b 0 8, numAt b 8 8, numAt b 16 8, numAt b 24 4, numAt b 28 4⟩

def chkCpyz (g : Guard) (v : BitVec 6) (dr : BitVec 5) (st : Bool) (s : State) : Option Trap :=
  let base := s.descBase dr
  let z := zDesc (s.descBytesAt base 32)
  let view := s.viewCheck slM v.toNat
  s.achk g none
    (if z.rest != 0 || z.s % 128 != 0 || decide (z.s < 128) || decide (4224 < z.s) then some (illegal5 slM) else none)
    (if st then view else none)
    (allTraps [
      view, (if (cpyzSize (vType (s.cc.vreg v.toNat))).isSome then none else some (illegal5 slM)),
      State.descAlign base,
      firstTrap [(z.slot % 128 != 0, alignMem z.slot), (z.table % 4 != 0, alignMem z.table), (z.pool % 128 != 0, alignMem z.pool)],
      s.descProt base 32])

/-- A new CPYZ command: vals are SLOTB, TABLE, POOL, S and i. -/
def State.newCpyz (s : State) (i : Instr) (v : BitVec 6) (dr r d : BitVec 5) (e : BitVec 4) : Cmd :=
  let z := zDesc (s.descBytesAt (s.descBase dr) 32)
  { s.newAsync i (some e.toNat) with
    set := s.cc.sSet d.toNat, views := [s.cc.vreg v.toNat],
    vals := [z.slot, z.table, z.pool, z.s, (s.cc.sreg r.toNat).toNat % 2 ^ 32].map (.ofNat 64) }

def execCpyzSt (g : Guard) (v : BitVec 6) (dr r : BitVec 5) (e : BitVec 4) (ui : Bool) (d : BitVec 5) (s : State) : Out3 :=
  s.slot g (chkCpyz g v dr true s) (fun s =>
    let img := offloadImage (readTile s.cc s.ct (s.cc.vreg v.toNat))
    s.asyncCopy { s.newCpyz (.cpyzSt g v dr r e ui d) v dr r d e with
      bytes := Mem.setBytes [] 0 img, pitch := img.length / 128 } (.cpyzComplete s.nextId []))

def execCpyzLd (g : Guard) (v : BitVec 6) (dr r : BitVec 5) (e : BitVec 4) (ui : Bool) (d : BitVec 5) (s : State) : Out3 :=
  s.slot g (chkCpyz g v dr false s) (fun s =>
    s.asyncCopy (s.newCpyz (.cpyzLd g v dr r e ui d) v dr r d e) (.cpyzComplete s.nextId []))

/-- Read n global bytes for a copy command; a violating byte reads zero here.  None while they must wait. -/
def State.kRead (s : State) (c : Cmd) (a n : Nat) (remote : Table Byte) : Option (List Byte × Cmd × State) :=
  let addrs := (List.range n).map (fun k => (a + k) % 2 ^ 64)
  let (l, s) := s.xlLines (whoOf c.sys) false (linesOfAddrs addrs)
  if l.missing remote || s.linesBusy l false then none
  else
    let l := l.settle remote
    some (addrs.map (fun x => (s.kByte l remote x).getD 0), c.note l addrs, s.chunkRequests c.field c.rel l false)

/-- Write global bytes for a copy command. -/
def State.kPut (s : State) (c : Cmd) (a : Nat) (bs : List Byte) : Option (Cmd × State) :=
  let cells := (numbered 0 bs).map (fun p => ((a + p.1) % 2 ^ 64, p.2))
  let addrs := cells.map (·.1)
  let (l, s) := s.xlLines (whoOf c.sys) true (linesOfAddrs addrs)
  if s.linesBusy l true then none
  else
    let cls := if c.isCopy then 1 else 3
    some (c.note l addrs, (s.chunkRequests c.field c.rel l true).kWrite l cls (writerOf c.field c.rel) c.seq cells)

/-- Units of a written image that go to its slot. -/
def Cmd.slotUnits (c : Cmd) : Nat := min c.pitch (c.val 3 / 128)

def Cmd.slotAddr (c : Cmd) (u : Nat) : Nat := (c.val 0 + c.val 3 * c.val 4 + 128 * u) % 2 ^ 64

/-- Pool unit u (R286). -/
def Cmd.poolAddr (c : Cmd) (u : Nat) : Nat := (c.val 2 + 128 * (u + 1)) % 2 ^ 64

def Cmd.ovfLost (c : Cmd) : Bool := bitAt c.status 2

/-- The size table entry (R285). -/
def Cmd.sizeEntry (c : Cmd) : Nat :=
  c.pitch + 2 ^ 6 * b2n c.ovfLost + 2 ^ 8 * (if c.pitch = c.slotUnits || c.ovfLost then 0xFFFFFF else c.addr % 2 ^ 24)

/-- The steps of a write: the slot's units; the allocation; the pool's units; the size entry. -/
def Cmd.writeSteps (c : Cmd) : Nat :=
  if c.pitch = c.slotUnits then c.pitch + 1 else if c.ovfLost then c.slotUnits + 2 else c.pitch + 2

/-- Allocate pool units by one operation on the header (R286). -/
def State.zAlloc (s : State) (c : Cmd) (remote : Table Byte) : Option (Cmd × State) :=
  match s.kRead c (c.val 2) 16 remote with
  | none => none
  | some (h, c, s) =>
    let next := numAt h 0 8
    let need := c.pitch - c.slotUnits
    if next + need ≤ numAt h 8 8 then
      (s.kPut c (c.val 2) (leBytes 8 (next + need))).map (fun (c, s) => ({ c with addr := next }, s))
    else some ({ c with status := Nat.lor c.status 4 }, s)

/-- One step of CPYZ writing an image (R285, R286). -/
def State.zWriteStep (s : State) (c : Cmd) (remote : Table Byte) : Option (Cmd × State) :=
  let k := c.prog
  let n := c.slotUnits
  let unit (u : Nat) : List Byte := c.bytes.bytes (128 * u) 128
  let r :=
    if k < n then s.kPut c (c.slotAddr k) (unit k)
    else if c.pitch ≠ n && k = n then s.zAlloc c remote
    else if k + 1 = c.writeSteps then s.kPut c ((c.val 1 + 4 * c.val 4) % 2 ^ 64) (leBytes 4 c.sizeEntry)
    else s.kPut c (c.poolAddr (c.addr + (k - n - 1))) (unit (k - 1))
  r.map (fun (c, s) => ({ c with prog := k + 1 }, s))

/-- One step of CPYZ reading an image (R287): the size entry into `addr`, then its units; a lost unit takes no access. -/
def State.zReadStep (s : State) (c : Cmd) (remote : Table Byte) : Option (Cmd × State) :=
  let r :=
    if c.prog = 0 then
      (s.kRead c ((c.val 1 + 4 * c.val 4) % 2 ^ 64) 4 remote).map (fun (b, c, s) => ({ c with addr := leNat b }, s))
    else
      let u := c.prog - 1
      let per := c.val 3 / 128
      if u < per then
        (s.kRead c (c.slotAddr u) 128 remote).map (fun (b, c, s) => ({ c with bytes := c.bytes.setBytes (128 * u) b }, s))
      else if bitAt c.addr 6 then some (c, s)
      else (s.kRead c (c.poolAddr (fld c.addr 8 24 + (u - per))) 128 remote).map
        (fun (b, c, s) => ({ c with bytes := c.bytes.setBytes (128 * u) b }, s))
  r.map (fun (c, s) => ({ c with prog := c.prog + 1 }, s))

/-- The UNITS of a read entry, none outside 1..33. -/
def Cmd.readUnits (c : Cmd) : Option Nat :=
  let u := fld c.addr 0 6
  if 1 ≤ u && u ≤ 33 then some u else none

/-- Set bits of a bitmap below k. -/
def bitsBelow (m : Mem) (k : Nat) : Nat := ((List.range k).filter (fun j => bitAt (m.byte (j / 8)).toNat (j % 8))).length

/-- Element k of a read image, and whether its bytes lay in lost units. -/
def Cmd.zElem (c : Cmd) (z k : Nat) : Nat × Bool :=
  if c.readUnits.isNone then (0, true)
  else if bitAt (c.bytes.byte (k / 8)).toNat (k % 8) then
    let o := 128 + z * bitsBelow c.bytes k
    if bitAt c.addr 6 && decide (c.val 3 ≤ o) then (0, true) else (c.bytes.num o z, false)
  else (0, false)

/-- The completion of a read: V's active elements, and hstat.ZLOST (R287). -/
def State.zFinishRead (s : State) (c : Cmd) (d : BitVec 5) (ui : Bool) : State :=
  let v := c.views.headD 0
  let z := (cpyzSize (vType v)).getD 1
  let es := (activeElems v).map (fun p => (p, c.zElem z (64 * p.1 + p.2)))
  let lost := es.any (·.2.2)
  let s := s.putRegs c (es.flatMap (fun x => elemCells v x.1.1 x.1.2 x.2.1))
  let s := if lost then s.modCmd c (fun x => { x with hstat := x.hstat ||| 8 }) else s
  s.finishCopy { c with status := if lost then Nat.lor c.status 8 else c.status } d ui

/-- CPYZ_COMPLETE: the next unit of an offload image; after the last, the completion. -/
def execCpyzComplete (id : Nat) (remote : Table Byte) (s : State) : Out3 :=
  match s.cmd id with
  | none => .next s
  | some c =>
    let again := Instr.cpyzComplete id []
    let go (done : Cmd → Bool) (r : Option (Cmd × State)) : State :=
      match r with
      | none => s.copyLater c 1 again
      | some (c, s) =>
        let s := s.putCmd c
        if done c then s.copyAt phLand s.now c.seq again else s.copyLater c 0 again
    match c.ins with
    | .cpyzSt _ _ _ _ _ ui d =>
      let done (c : Cmd) : Bool := decide (0 < c.prog) && decide (c.writeSteps ≤ c.prog)
      .next (if done c then s.finishCopy c d ui
        else if !s.copyTurn c then s.copyLater c 1 again else go done (s.zWriteStep c remote))
    | .cpyzLd _ _ _ _ _ ui d =>
      let done (c : Cmd) : Bool := decide (0 < c.prog) && decide (c.readUnits.getD 0 < c.prog)
      .next (if done c then s.zFinishRead c d ui
        else if !s.copyTurn c then s.copyLater c 1 again else go done (s.zReadStep c remote))
    | _ => .next s

end Sys2Proof.Machine
end

