-- ==== Sys2Proof/Machine/Mesh.lean ====
section
/-! DEFINITION. MSEND and MRECV (R471, R472). -/

namespace Sys2Proof.Machine

open Sys2Proof

/-- First line and line count of the K = 1 form. -/
def lineField (v : W64) : Nat × Nat := (fld v.toNat 0 16, fld v.toNat 16 12)

def meshTile : MeshPay → Bool
  | .tile _ => true
  | .lines _ => false

/-- The bytes a mesh command moves. -/
def State.meshBytes (s : State) (p : MeshPay) : Nat :=
  match p with
  | .tile v => footprint (vType (s.cc.vreg v.toNat))
  | .lines dr => 16 * (lineField (s.cc.sreg dr.toNat)).2

def beatsOf (n : Nat) : Nat := (n + 127) / 128

/-- The bytes it reads or writes, as regions. -/
def State.meshRegion (s : State) (p : MeshPay) : Region :=
  match p with
  | .tile v => .reg s.cur.hw (vBase (s.cc.vreg v.toNat)) (s.meshBytes p)
  | .lines dr => let (l, n) := lineField (s.cc.sreg dr.toNat); .lines true l n

/-- A mesh command of the issuing context, with its views and values as given. -/
def State.meshCmd (s : State) (i : Instr) (send : Bool) (port : BitVec 2) (vals views : List W64) (t : Nat) : ECmd :=
  let (region, n) : Region × Nat := match views with
    | v :: _ => (.reg s.cur.hw (vBase v) (footprint (vType v)), beatsOf (footprint (vType v)))
    | [] => let (l, k) := lineField (vals.headD 0); (.lines true l k, beatsOf (16 * k))
  { s.newCmd i t (t + n - 1) with
    vals := vals, views := views, dst := if send then [] else [region], ready := t + n + 2, slots := [⟨send, port.toNat, t, n⟩] }

/-- The checks of R458 on a mesh command. -/
def State.meshChk (s : State) (i : Instr) (g : Guard) (send : Bool) (port : BitVec 2) (pay : MeshPay) (tm : Timing) : Option Trap :=
  let t := s.estart tm
  let n := beatsOf (s.meshBytes pay)
  let values := match pay with
    | .tile _ => none
    | .lines dr =>
      let v := s.cc.sreg dr.toNat
      if decide (2 ^ 28 ≤ v.toNat) || (lineField v).2 == 0 then some (illegal5 slM) else none
  let view := match pay with
    | .tile v => s.viewCheck slM v.toNat
    | .lines _ => none
  s.achk g (Instr.rangeTrap i slM) (orTrap (s.startTrap slM tm) values) (if send then view else none)
    (allTraps [
      view,
      (match pay with
      | .tile v => if vType (s.cc.vreg v.toNat) == 8 then some (illegal5 slM) else none
      | .lines _ => none),
      (if (s.fieldNeighbour port.toNat).isSome then none else some (⟨2, 3, slM, 0x10 + port.toNat, 0⟩)),
      (match pay with
      | .tile _ => none
      | .lines dr => let (l, k) := lineField (s.cc.sreg dr.toNat); (s.badLines true l k).map (protScratch slM)),
      lateTrap slM t s.enow,
      (if send then s.conflict slM 2 t (pcsOf (s.stillWriting t.toNat [s.meshRegion pay])) else none),
      s.conflict slM 3 t (pcsOf (s.meshHolders [⟨send, port.toNat, t.toNat, n⟩])),
      boundTrap s slM t s.ct.mesh])

/-- Accept a mesh command: views and lines as read at issue. -/
def State.acceptMesh (s : State) (i : Instr) (send : Bool) (port : BitVec 2) (pay : MeshPay) (tm : Timing) : State :=
  let t := (s.estart tm).toNat
  let c := match pay with
    | .tile v => s.meshCmd i send port [] [s.cc.vreg v.toNat] t
    | .lines dr => s.meshCmd i send port [s.cc.sreg dr.toNat] [] t
  let s := s.modCT (fun x => { x with mesh := x.mesh ++ [c] })
  ({ s with nextId := s.nextId + 1 }).startAt .mesh t c.id

def chkMsend (g : Guard) (port : BitVec 2) (pay : MeshPay) (tm : Timing) (s : State) : Option Trap :=
  s.meshChk (.msend g port pay tm) g true port pay tm
def chkMrecv (g : Guard) (port : BitVec 2) (pay : MeshPay) (tm : Timing) (s : State) : Option Trap :=
  s.meshChk (.mrecv g port pay tm) g false port pay tm

def execMsend (g : Guard) (port : BitVec 2) (pay : MeshPay) (tm : Timing) (s : State) : Out3 :=
  s.slot g (chkMsend g port pay tm s) (fun s => s.acceptMesh (.msend g port pay tm) true port pay tm)
def execMrecv (g : Guard) (port : BitVec 2) (pay : MeshPay) (tm : Timing) (s : State) : Out3 :=
  s.slot g (chkMrecv g port pay tm s) (fun s => s.acceptMesh (.mrecv g port pay tm) false port pay tm)

/-- Direction and port of an accepted mesh command. -/
def ECmd.meshPort (c : ECmd) : Bool × Nat :=
  match c.ins with
  | .msend _ p _ _ => (true, p.toNat)
  | .mrecv _ p _ _ => (false, p.toNat)
  | _ => (false, 0)

/-- Bytes an accepted mesh command moves. -/
def ECmd.meshLen (c : ECmd) : Nat :=
  match c.views with
  | v :: _ => footprint (vType v)
  | [] => 16 * (lineField (c.vals.headD 0)).2

/-- Beat b of a receiver lands at T′ + b + 3, on the mesh port where it goes to the scratchpad (R271), and among the results of its cycle in
issue order where it goes to register space (R187). -/
def State.beatDue (s : State) (t : Nat) (c : ECmd) (b : Nat) : State :=
  s.atSeq (s.cmdClk t c) (c.t + b + 3) (if c.views.isEmpty then phMesh else phLand) c.seq (.meshBeatReceive (.ofNat 8 t) c.id b)

/-- The start of a mesh command (R206): a sender samples beat 0 at T; a receiver writes beat 0 at T + 3.  One that a tile record
reinstates goes on where it was (R484). -/
def State.startMesh (s : State) (t id : Nat) : State :=
  match findE (s.tile t).mesh id with
  | none => s
  | some c =>
    let s := s.modTile t (fun x => { x with mesh := putE x.mesh { c with started := true } })
    if c.meshPort.1 then s.at (s.cmdClk t c) (c.t + c.prog) phEngine (.meshBeatSend (.ofNat 8 t) id c.prog)
    else s.beatDue t c c.prog

/-- The bytes of beat b as its sender samples them. -/
def State.beatBytes (s : State) (t : Nat) (c : ECmd) (b : Nat) : List Byte × State :=
  let n := min 128 (c.meshLen - 128 * b)
  match c.views with
  | v :: _ =>
    ((List.range n).map (fun k => regByte (s.ctx t c.hw) (s.tile t) c.sysw (vBase v + 128 * b + k)), s)
  | [] =>
    let (l, _) := lineField (c.vals.headD 0)
    s.spSample t (s.memberOf t c.hw) true (c.issue == s.cmdNow t c) (linesFrom (l + 8 * b) (n / 16))

/-- A beat reaches the neighbour's opposite port after the hop time (R256, R472). -/
def State.sendBeat (s : State) (t f port c : Nat) (bs : List Byte) : State :=
  match neighbour t port with
  | none => s
  | some nb =>
    s.modTile nb (fun x => { x with
      beats := x.beats.filter (fun b => b.field != f || decide (c ≤ b.at_ + 8)) ++ [⟨f, oppositePort port, c + hopCycles t nb, 0, 1, bs⟩] })

/-- MESH_BEAT_SEND: beat b is sampled at T + b and placed on the port in that cycle. -/
def execMeshBeatSend (tile : BitVec 8) (id : Nat) (beat : Nat) (s : State) : Out3 :=
  let t := tile.toNat
  match findE (s.tile t).mesh id with
  | none => .next s
  | some c =>
    if !c.meshPort.1 || decide (beatsOf (c.meshLen) ≤ beat) then .next s
    else
      let (bs, s) := s.beatBytes t c beat
      let now := s.cmdNow t c
      let more := decide (beat + 1 < beatsOf c.meshLen)
      let s := s.modTile t (fun x => { x with mesh := if more then putE x.mesh { c with prog := beat + 1 } else dropE x.mesh id })
      let s := s.sendBeat t (s.ctx t c.hw).fieldNum c.meshPort.2 now bs
      .next (if more then
        s.at (s.cmdClk t c) (c.t + beat + 1) phEngine (.meshBeatSend tile id (beat + 1)) else s)

/-- The cells that beat b writes through a view: its active elements that lie in the beat. -/
def beatCells (v : W64) (b : Nat) (bs : List Byte) : List MaskedByte :=
  let q : TileCopy := ⟨v, Mem.setBytes [] (128 * b) bs⟩
  ((activeElems v).filter (fun p =>
    let o := (elemAt (vType v) p.1 p.2).1
    decide (128 * b ≤ o) && decide (o < 128 * b + bs.length))).flatMap (fun p => elemCells v p.1 p.2 (q.elem p.1 p.2))

/-- MESH_BEAT_RECEIVE: the beat of its own field that arrived on the port at T′ + b is written at T′ + b + 3; when none
arrived, its bytes keep their contents. -/
def execMeshBeatReceive (tile : BitVec 8) (id : Nat) (beat : Nat) (s : State) : Out3 :=
  let t := tile.toNat
  match findE (s.tile t).mesh id with
  | none => .next s
  | some c =>
    if c.meshPort.1 || decide (beatsOf (c.meshLen) ≤ beat) then .next s
    else
      let f := (s.ctx t c.hw).fieldNum
      let more := decide (beat + 1 < beatsOf c.meshLen)
      let got := (s.tile t).beats.find? (fun b => b.field == f && b.port == c.meshPort.2 && b.at_ == c.t + beat)
      let s := match got with
        | none => s
        | some b =>
          let bs := b.bytes.take (c.meshLen - 128 * beat)
          match c.views with
          | v :: _ =>
            let (x, y) := putCells c.sysw false (beatCells v beat bs) (s.ctx t c.hw, s.tile t)
            (s.setCtx t c.hw x).setTile t y
          | [] =>
            let (l, _) := lineField (c.vals.headD 0)
            s.modTile t (fun x => x.spWrite s.now true (lineCells (s.memberOf t c.hw) true (l + 8 * beat) bs))
      let s := s.modTile t (fun x => { x with mesh := if more then putE x.mesh { c with prog := beat + 1 } else dropE x.mesh id })
      .next (if more then s.beatDue t c (beat + 1) else s)

end Sys2Proof.Machine
end

