-- ==== Sys2Proof/Machine/Notify.lean ====
section
/-! DEFINITION. What the device tells the host: MSI-X messages (R114), health (R21), event registers (R126), the fault queue
(R129 to R131) and machine checks. -/

namespace Sys2Proof.Machine

open Sys2Proof

/-! ## MSI-X (R114)

A vector whose mask bit is set leaves its message pending, as the PCIe Base Specification has it; entries reset masked
(PRESUMED, log entry 41). -/

def HostPort.msixWord (h : HostPort) (k : Nat) : W32 := h.msix.rd (if k % 4 = 3 then 1 else 0) k
def HostPort.masked (h : HostPort) (v : Nat) : Bool := bitAt (h.msixWord (4 * v + 3)).toNat 0

def State.msix (s : State) (v : Nat) : State :=
  if s.hport.masked v then { s with hport := { s.hport with pba := s.hport.pba.wr false v true } }
  else s.emit (.msix v)

/-- Messages that were pending on vectors no longer masked are sent. -/
def State.msixUnmask (s : State) : State :=
  (List.range 32).foldl (fun s v =>
    if s.hport.pba.rd false v && !s.hport.masked v then
      { s with hport := { s.hport with pba := s.hport.pba.wr false v false } }.msix v
    else s) s

/-! ## Health (R21) -/

def State.health (s : State) (was : Bool) : State := if was then s else s.msix 0

def State.setThwarn (s : State) : State := ({ s with pkg := { s.pkg with thwarn := true } }.markSet 0x100000 2).health s.pkg.thwarn
def State.setThtrip (s : State) : State := { s with pkg := { s.pkg with thtrip := true } }.health s.pkg.thtrip
def State.setDroop (s : State) : State := ({ s with pkg := { s.pkg with droop := true } }.markSet 0x100000 4).health s.pkg.droop
def State.setDegnew (s : State) : State := ({ s with pkg := { s.pkg with degnew := true } }.markSet 0x100000 5).health s.pkg.degnew
def State.setTberr (s : State) : State := ({ s with torus := { s.torus with tberr := true } }.markSet 0x13000C 2).health s.torus.tberr
/-- TOR_STAT.CFGERR (R52): no notification is sent. -/
def State.setCfgerr (s : State) : State := { s with torus := { s.torus with cfgerr := true } }.markSet 0x13000C 1

/-! ## Event registers (R123, R126) -/

/-- The device adds to an event register; 0xFFFF names none, and it never adds to EV4095. -/
def State.evAdd (s : State) (e n : Nat) : State :=
  if 4095 ≤ e then s
  else { s with hport := { s.hport with ev := s.hport.ev.wr 0 e (s.hport.ev.rd 0 e + .ofNat 32 n) } }

/-- (EV[e] − v) taken as a signed 32-bit value is at least 0; none always holds. -/
def State.evReached (s : State) (e : Nat) (v : W32) : Bool :=
  if 4095 ≤ e then true else (0 : W32).sle (s.hport.ev.rd 0 e - v)

/-! ## Packets that complete (R114, R118, R122) -/

def State.queue (s : State) (q : Nat) : Queue := s.hport.queues.rd Queue.idle q
def State.modQueue (s : State) (q : Nat) (f : Queue → Queue) : State :=
  { s with hport := { s.hport with queues := s.hport.queues.wr Queue.idle q (f (s.queue q)) } }

def pktType (p : Pkt) : Nat := numAt p.bytes 0 1
def pktNotify (p : Pkt) : Bool := bitAt (numAt p.bytes 1 1) 0

/-- A started packet, by its number, completes: with NOTIFY set it signals its vector; a FENCE or the queue's next packet may now
go on. -/
def State.packetDone (s : State) (q id : Nat) : State :=
  match (s.queue q).started.find? (fun p => p.id == id) with
  | none => s
  | some p =>
    let s := s.modQueue q (fun x => { x with started := x.started.filter (fun y => y.id != id) })
    let s := if pktNotify p then s.msix (4 + q % 28) else s
    s.at none s.now phDevice (.packetStart (.ofNat 10 q))

/-- Packets complete, each by its queue and number. -/
def State.packetsDone (s : State) (l : List (Nat × Nat)) : State := l.foldl (fun s p => s.packetDone p.1 p.2) s

/-! ## The fault queue (R129 to R131) -/

def HostPort.fqFull (h : HostPort) : Bool := decide (1024 ≤ (h.fqProd - h.fqCons).toNat)

/-- Write one record into the ring (R130). -/
def State.fqPut (s : State) (bs : List Byte) : State :=
  let h := s.hport
  let s' := { s with hport := { h with
    fqRing := h.fqRing.setBytes (32 * (h.fqProd.toNat % 1024)) (bytesAt bs 0 32), fqProd := h.fqProd + 1, fqNew := true,
    sets := (0x140008, 1) :: h.sets } }
  if h.fqNew then s' else s'.msix 1

/-- A record of the device itself waits to be written. -/
def State.record (s : State) (bs : List Byte) : State :=
  { s with hport := { s.hport with fqWait := s.hport.fqWait ++ [bytesAt bs 0 32] } }.at none s.now phDevice .faultRecordWrite

/-- Requests in order of field, then address (R298). -/
def PageReq.before (a b : PageReq) : Bool := decide (a.field < b.field) || (a.field == b.field && decide (a.page ≤ b.page))

def insertReq (r : PageReq) : List PageReq → List PageReq
  | [] => [r]
  | x :: xs => if r.before x then r :: x :: xs else x :: insertReq r xs

def sortReqs : List PageReq → List PageReq
  | [] => []
  | x :: xs => insertReq x (sortReqs xs)

/-- The first maximal run of consecutive pages of one field, and the rest. -/
def firstRun : List PageReq → List PageReq × List PageReq
  | [] => ([], [])
  | [x] => ([x], [])
  | x :: y :: r =>
    if x.field = y.field && x.page + 65536 = y.page then
      let (a, b) := firstRun (y :: r)
      (x :: a, b)
    else ([x], y :: r)

/-- The range record of a run (R300). -/
def rangeRecord (die cycle : Nat) (rs : List PageReq) : List Byte :=
  match rs with
  | [] => []
  | r :: _ =>
    leBytes 1 1 ++ leBytes 1 (b2n (rs.any (·.write)) + 2 * b2n (rs.any (·.lost)) + 4 * b2n (rs.all (·.hint)))
      ++ leBytes 2 r.field ++ leBytes 2 (min 0xFFFF (sumNat (rs.map (·.count)))) ++ leBytes 1 die ++ leBytes 1 0
      ++ leBytes 8 r.page ++ leBytes 4 rs.length ++ leBytes 4 0 ++ leBytes 8 cycle

/-- Dies that hold a closed batch. -/
def State.batchDies (s : State) : List Nat := (List.range 4).filter (fun d => !(s.die d).closed.isEmpty)

/-- The next record of a die's oldest closed batch. -/
def State.rangeWrite (s : State) (d : Nat) : State :=
  match (s.die d).closed with
  | [] => s
  | b :: bs =>
    let (run, rest) := firstRun (sortReqs b.reqs)
    let s := s.modDie d (fun x => { x with closed := if rest.isEmpty then bs else { b with reqs := rest } :: bs })
    if run.isEmpty then s else s.fqPut (rangeRecord d (b.closed.getD 0) run)

/-- FAULT_RECORD_WRITE (R130): one record is written while FULL is 0, from the device's own or from a fault unit, and the
next follows.  Which of them comes first is free (log entry 1). -/
def execFaultRecordWrite (s : State) : Out3 :=
  if s.hport.fqFull then .next s
  else
    let ds := s.batchDies
    let own := b2n (!s.hport.fqWait.isEmpty)
    if ds.length + own = 0 then .next s
    else
      let (k, s) := s.drawFree
      let k := k % (ds.length + own)
      let s := match (if k < ds.length then ds[k]? else none) with
        | some d => s.rangeWrite d
        | none =>
          match s.hport.fqWait with
          | [] => s
          | r :: rs => { s with hport := { s.hport with fqWait := rs } }.fqPut r
      .next (if s.hport.fqWait.isEmpty && s.batchDies.isEmpty then s else s.at none s.now phDevice .faultRecordWrite)

def copyFaultRecord (q seq addr : Nat) : List Byte :=
  leBytes 2 3 ++ leBytes 2 q ++ leBytes 2 seq ++ leBytes 2 0 ++ leBytes 8 addr

def launchFailureRecord (reason q seq field : Nat) : List Byte :=
  leBytes 1 4 ++ leBytes 1 reason ++ leBytes 2 q ++ leBytes 2 seq ++ leBytes 2 field

/-- A machine check (R131). -/
def State.machineCheck (s : State) (cls tile field addr : Nat) : State :=
  s.record (leBytes 1 2 ++ leBytes 1 cls ++ leBytes 2 tile ++ leBytes 2 field ++ leBytes 2 0 ++ leBytes 8 addr
    ++ leBytes 8 s.global)

/-! ## MACHINE traps that no bundle causes (R321, R324) -/

def machine (sub info1 info2 : Nat) : Trap := ⟨11, sub, 0, info1, info2⟩

/-- Raise MACHINE in every context of a field. -/
def State.machineField (s : State) (f : Nat) (tr : Trap) : State :=
  let x := s.field f
  (List.range (x.w * x.h)).foldl (fun s p =>
    (List.range x.ctxs).foldl (fun s n => s.modRel f (4 * p + n) (·.report s.now 0 none tr)) s) s

/-- The fields with a tile in a set of tiles. -/
def State.fieldsOn (s : State) (ts : Nat → Bool) : List Nat :=
  (s.fields.filter (fun e => e.2.placed && e.2.tiles.any ts)).map (·.1)

end Sys2Proof.Machine
end

