-- ==== Sys2Proof/Machine/Links.lean ====
section
/-! DEFINITION. The link commands LSEND, LRECV, LRED and LBCST: their planned slots (R48, R61, R62), chunks and reduction
hops (R66 to R70), weight broadcast (R71 to R73), and R473 to R476. -/

namespace Sys2Proof.Machine

open Sys2Proof

/-! ## Slots (R48, R61) -/

/-- Slots of a frame: 9 at 12 lanes, 12 otherwise. -/
def slotsOf (lanes : Nat) : Nat := if lanes = 12 then 9 else 12

/-- The departure of data slot n, numbered from the frame at cycle 0. -/
def slotDep (s n : Nat) : Nat := 4 * (n / (s - 1)) + 4 * (n % (s - 1) + 1) / s

/-- The first data slot whose departure is at or after cycle t. -/
def slotFrom (s t : Nat) : Nat :=
  let n := (s - 1) * (t / 4)
  n + ((List.range s).find? (fun k => decide (t ≤ slotDep s (n + k)))).getD 0

def State.modPort (s : State) (p : Nat) (f : Port → Port) : State :=
  { s with torus := { s.torus with ports := s.torus.ports.wr Port.idle p (f (s.port p)) } }

/-- The cycle at which frame 0 of a command's clock begins: tcyc 0, or global cycle 0 for a command that runs by device
cycles (R59, R332). -/
def State.frameZero (s : State) (dclk : Bool) : Int := if dclk then s.gzero else 0

/-- Departure of flit k of a plan, in the command's clock. -/
def LinkPlan.dep (p : LinkPlan) (zero : Int) (k : Nat) : Nat := ((slotDep p.s (p.first + k) : Int) + zero).toNat

/-- When flit k leaves, or arrives, here. -/
def LinkPlan.at (p : LinkPlan) (zero : Int) (k : Nat) : Nat := p.dep zero k + (if p.out then 0 else p.lat)

def LinkPlan.lastAt (p : LinkPlan) (zero : Int) : Nat := p.at zero (p.n - 1)

/-- Plan n flits on a port direction from start cycle t: a receiver expects the slots that arrive from t on (R61). -/
def State.plan (s : State) (dclk out : Bool) (port n : Nat) (t : Nat) : LinkPlan :=
  let x := s.port port
  let d := slotsOf x.lanes
  let c := (t : Int) - s.frameZero dclk - (if out then 0 else (x.lat : Int))
  ⟨out, port, d, x.lat, slotFrom d c.toNat, n⟩

/-- The guard interval of a plan on its port direction (R62). -/
def LinkPlan.guard (p : LinkPlan) (zero : Int) : MeshSlot :=
  let a := p.at zero 0
  let b := p.lastAt zero
  ⟨p.out, p.port, a - 8, b + 8 + 1 - (a - 8)⟩

/-! ## The link descriptor (R473) -/

structure LinkD where
  port  : Nat
  chunk : Bool
  fmt   : Nat
  out   : Nat
  tag   : Nat
  num   : Nat
  q     : Nat
  cidx  : Nat
  cb    : Nat
  fport : Nat
  fstart : Nat
  addr  : Nat
  len   : Nat
  glob  : Bool
  view  : Nat
  view2 : Nat
  dims  : Nat
  root  : Nat
  slot  : Nat
  count : Nat
  tile  : Nat

def linkD (b : List Byte) : LinkD where
  port := numAt b 0 1
  chunk := numAt b 1 1 == 1
  fmt := numAt b 2 1
  out := numAt b 3 1
  tag := numAt b 4 2
  num := numAt b 6 2
  q := numAt b 8 1
  cidx := numAt b 9 1
  cb := numAt b 10 1
  fport := numAt b 11 1
  fstart := numAt b 12 4
  addr := numAt b 16 8
  len := numAt b 24 4
  glob := numAt b 28 1 == 1
  view := numAt b 29 1
  view2 := numAt b 30 1
  dims := numAt b 31 1
  root := numAt b 32 2
  slot := numAt b 34 2
  count := numAt b 36 2
  tile := numAt b 38 2

inductive LinkKind where
  | send | recv | red | bcst
deriving DecidableEq, Repr

/-- The descriptor bytes a form uses, as (first, count). -/
def LinkD.used (d : LinkD) (k : LinkKind) : List (Nat × Nat) :=
  match k with
  | .bcst => [(4, 2), (31, 9)]
  | .red =>
    [(0, 1), (2, 7), (9, 1), (29, 1)] ++ (if d.fmt = 2 || d.out = 2 then [(10, 1)] else [])
      ++ (if d.out ≤ 2 then [(11, 5)] else [(30, 1)])
  | _ =>
    if d.chunk then
      [(0, 3), (4, 5), (29, 1)] ++ (if k = .send then [(9, 1)] else []) ++ (if d.fmt = 2 then [(30, 1)] else [])
    else [(0, 2), (4, 2), (16, 13)]

/-- A value outside its limits, or a byte that must be zero and is not (R473). -/
def LinkD.bad (d : LinkD) (s : State) (k : LinkKind) (b : List Byte) : Bool :=
  let used := d.used k
  (numbered 0 b).any (fun x => x.2 != 0 && !used.any (fun u => decide (u.1 ≤ x.1) && decide (x.1 < u.1 + u.2)))
    || d.tag == 0xFFFF
    || (match k with
    | .bcst =>
      d.dims == 0 || decide (8 ≤ d.dims) || decide (s.pkgCount ≤ d.root) || d.count == 0 || decide (512 < d.slot + d.count)
        || decide (256 ≤ d.tile) || !s.cfield.hasTile d.tile
    | .red =>
      decide (6 ≤ d.port) || decide (3 ≤ d.fmt) || decide (5 ≤ d.out) || decide (48 ≤ d.q) || decide (32 ≤ d.cidx)
        || decide (16 ≤ d.cb) || decide (6 ≤ d.fport) || decide (2 ^ 21 ≤ d.fstart) || decide (64 ≤ d.view) || decide (64 ≤ d.view2)
    | _ =>
      decide (6 ≤ d.port) || decide (2 ≤ numAt b 1 1)
        || (if d.chunk then decide (3 ≤ d.fmt) || decide (48 ≤ d.q) || decide (32 ≤ d.cidx) || decide (64 ≤ d.view) || decide (64 ≤ d.view2)
          else decide (2 ≤ numAt b 28 1) || d.len % 64 != 0 || decide (d.len < 64) || decide (2 ^ 20 < d.len)
            || (!d.glob && decide (2 ^ 32 ≤ d.addr))))

/-- Flits of a chunk with its header (R66). -/
def chunkFlits (fmt : Nat) : Nat := if fmt = 0 then 97 else if fmt = 1 then 33 else 19

/-- Payload bytes of a chunk. -/
def chunkPayload (fmt : Nat) : Nat := if fmt = 0 then 6144 else if fmt = 1 then 2048 else 1152

/-- TYPE of the view of a chunk form (R474). -/
def chunkType (fmt : Nat) : Nat := if fmt = 0 then 8 else if fmt = 1 then 1 else 6

def LinkD.flits (d : LinkD) (k : LinkKind) : Nat :=
  match k with
  | .bcst => 1024 * d.count
  | .red => chunkFlits d.fmt
  | _ => if d.chunk then chunkFlits d.fmt else d.len / 64

/-! ## The tree of a broadcast (R71, R72) -/

/-- Coordinates of a package by number (R53). -/
def State.coordsOf (s : State) (pkg : Nat) : List Nat :=
  [pkg % s.extent 0, pkg / s.extent 0 % s.extent 1, pkg / (s.extent 0 * s.extent 1)]

def State.own (s : State) : List Nat := [s.coordOf 0, s.coordOf 1, s.coordOf 2]

/-- Distance from the root in one dimension, and whether it receives there through its plus port. -/
def dimDist (n c c0 : Nat) : Nat × Bool :=
  let d := (c + n - c0 % n) % n
  if d ≤ n / 2 then (d, false) else (n - d, true)

/-- Depth of a package in the tree of a set of dimensions. -/
def State.depthOf (s : State) (dims : Nat) (root at_ : List Nat) : Nat :=
  sumNat ((List.range 3).map (fun k =>
    if bitAt dims k then (dimDist (s.extent k) ((at_[k]?).getD 0) ((root[k]?).getD 0)).1 else 0))

/-- The port a package receives through: in the last named dimension in which it differs from the root. -/
def State.recvPort (s : State) (dims : Nat) (root at_ : List Nat) : Option Nat :=
  ((List.range 3).reverse.find? (fun k =>
    bitAt dims k && (dimDist (s.extent k) ((at_[k]?).getD 0) ((root[k]?).getD 0)).1 != 0)).map (fun k =>
      2 * k + (if (dimDist (s.extent k) ((at_[k]?).getD 0) ((root[k]?).getD 0)).2 then 0 else 1))

/-- The coordinates of the neighbour through a port. -/
def State.neighbourCoords (s : State) (at_ : List Nat) (p : Nat) : List Nat :=
  let k := p / 2
  let n := s.extent k
  at_.set k ((((at_[k]?).getD 0) + (if p % 2 = 0 then 1 else n - 1)) % n)

def facing (p : Nat) : Nat := if p % 2 = 0 then p + 1 else p - 1

/-- The ports a package forwards on: to each neighbour whose depth exceeds its own by one and that receives from it. -/
def State.forwardPorts (s : State) (dims : Nat) (root at_ : List Nat) : List Nat :=
  (List.range 6).filter (fun p =>
    bitAt dims (p / 2) &&
      (let nb := s.neighbourCoords at_ p
       s.depthOf dims root nb == s.depthOf dims root at_ + 1 && s.recvPort dims root nb == some (facing p)))

def LinkD.rootAt (d : LinkD) (s : State) : List Nat := s.coordsOf d.root
def LinkD.depth (d : LinkD) (s : State) : Nat := s.depthOf d.dims (d.rootAt s) s.own
def LinkD.isRoot (d : LinkD) (s : State) : Bool := d.root == s.pkgNum
def LinkD.recv (d : LinkD) (s : State) : Option Nat :=
  if d.isRoot s then none else s.recvPort d.dims (d.rootAt s) s.own

/-! ## What a command plans -/

/-- Delay a plan by a number of cycles that is a multiple of 4. -/
def LinkPlan.delay (p : LinkPlan) (c : Nat) : LinkPlan := { p with first := p.first + c / 4 * (p.s - 1) }

/-- The slot a plan's flit 0 would take at the root of a broadcast, in the numbering of this port (R72). -/
def State.rootPlan (s : State) (dclk out : Bool) (port n t : Nat) : LinkPlan :=
  let x := s.port port
  let d := slotsOf x.lanes
  ⟨out, port, d, x.lat, slotFrom d ((t : Int) - s.frameZero dclk).toNat, n⟩

/-- The receiving plan of a command that starts at t, if it has one. -/
def State.recvPlan (s : State) (k : LinkKind) (d : LinkD) (t : Nat) : Option LinkPlan :=
  let n := d.flits k
  match k with
  | .send => none
  | .bcst => (d.recv s).map (fun p => (s.rootPlan s.cfrozen false p n t).delay ((d.depth s - 1) * s.torus.hop))
  | _ => some (s.plan s.cfrozen false d.port n t)

/-- The arrival of its last flit. -/
def State.arrLast (s : State) (k : LinkKind) (d : LinkD) (t : Nat) : Nat :=
  ((s.recvPlan k d t).map (·.lastAt (s.frameZero s.cfrozen))).getD t

/-- An LRED's forward start cycle (R475). -/
def State.forwardStart (s : State) (d : LinkD) (t : Nat) : Int :=
  if bitAt d.fstart 20 then ((s.arrLast .red d t + 20 : Nat) : Int) else startCycle s.enow (d.fstart % 2 ^ 20)

def State.plansOf (s : State) (k : LinkKind) (d : LinkD) (t : Nat) : List LinkPlan :=
  (s.recvPlan k d t).toList ++
    (match k with
    | .send => [s.plan s.cfrozen true d.port (d.flits k) t]
    | .recv => []
    | .red => if d.out ≤ 2 then [s.plan s.cfrozen true d.fport (chunkFlits d.out) (s.forwardStart d t).toNat] else []
    | .bcst =>
      (s.forwardPorts d.dims (d.rootAt s) s.own).map (fun p =>
        (s.rootPlan s.cfrozen true p (d.flits k) t).delay (d.depth s * s.torus.hop)))

/-- The cycle of the completion word (R63, R474 to R476). -/
def State.linkDone (s : State) (k : LinkKind) (d : LinkD) (t : Nat) : Nat :=
  let zero := s.frameZero s.cfrozen
  match k with
  | .send => (s.plan s.cfrozen true d.port (d.flits k) t).lastAt zero + 8
  | .recv => s.arrLast k d t + 8
  | .red => s.arrLast k d t + 20
  | .bcst =>
    let ps := s.plansOf k d t
    if d.isRoot s then maxNat (ps.map (·.lastAt zero)) + 8
    else
      match d.recv s with
      | some p => (s.rootPlan s.cfrozen true p (d.flits k) t).lastAt zero + d.depth s * s.torus.hop + 32
      | none => (s.rootPlan s.cfrozen true 0 (d.flits k) t).lastAt zero + d.depth s * s.torus.hop + 32

/-- Payload bytes of a plan of a command: what R26 measures. -/
def LinkD.payload (d : LinkD) (k : LinkKind) (out : Bool) : Nat :=
  match k with
  | .bcst => 65536 * d.count
  | .red => chunkPayload (if out then d.out else d.fmt)
  | _ => if d.chunk then chunkPayload d.fmt else d.len

/-- One unit per port for every window in which a heavy transfer moves flits (R26, R30). -/
def State.chargesL (s : State) (k : LinkKind) (d : LinkD) (t : Nat) : List (Nat × Nat) :=
  let zero := s.frameZero s.cfrozen
  (s.plansOf k d t).flatMap (fun (p : LinkPlan) =>
    if 4096 < d.payload k p.out then
      let a : Nat := p.at zero 0
      (windowsOf (s.globalAt a) (p.lastAt zero - a + 1)).map (fun w => (w, 1))
    else [])

/-! ## Checks at issue -/

/-- A port belongs to the field, or to its alternation group (R60). -/
def State.ownsPort (s : State) (p : Nat) : Bool :=
  bitAt s.cfield.ports p || (match s.partner s.cf with
    | some f => bitAt (s.field f).ports p
    | none => false)

def protPort (p : Nat) : Trap := ⟨2, 3, slM, p, 0⟩

/-- The ports a command names or is given by its tree. -/
def State.portsNamed (s : State) (k : LinkKind) (d : LinkD) : List Nat :=
  match k with
  | .bcst => (d.recv s).toList ++ s.forwardPorts d.dims (d.rootAt s) s.own
  | .red => d.port :: (if d.out ≤ 2 then [d.fport] else [])
  | _ => [d.port]

/-- PRIV 0x03 for a tag of the scheduler's or a port the field does not own. -/
def State.linkPriv (s : State) (k : LinkKind) (d : LinkD) : Option Trap :=
  let ps := s.portsNamed k d
  if d.tag = 0xFFFE then some (protPort (ps.headD 0)) else (ps.find? (fun p => !s.ownsPort p)).map protPort

/-- Bytes a chunk form's view spans. -/
def viewRegion (s : State) (n : Nat) (span : Nat) : Region := .reg s.cur.hw (vBase (s.cc.vreg n)) span

def linesSpan (a n : Nat) : Region := .lines false (a / 16) ((a + n + 15) / 16 - a / 16)

/-- What a command samples at its start cycle. -/
def State.linkSources (s : State) (k : LinkKind) (d : LinkD) : List Region :=
  let v := s.cc.vreg d.view
  match k with
  | .send =>
    if d.chunk then viewRegion s d.view (footprint (vType v)) :: (if d.fmt = 2 then [viewRegion s d.view2 128] else [])
    else if d.glob then [] else [linesSpan d.addr d.len]
  | .red => [viewRegion s d.view (footprint (vType v))]
  | _ => []

/-- What it writes, through views v and v2 of context hw. -/
def linkDests (k : LinkKind) (d : LinkD) (hw : Nat) (v v2 : W64) : List Region :=
  match k with
  | .recv =>
    if d.chunk then .reg hw (vBase v) (footprint (vType v)) :: (if d.fmt = 2 then [.reg hw (vBase v2) 128] else [])
    else if d.glob then [] else [linesSpan d.addr d.len]
  | .red => if d.out = 3 then [.reg hw (vBase v2) 4096] else if d.out = 4 then [.reg hw (vBase v2) 8192] else []
  | _ => []

/-- Accepted streams that fill an accumulator entry of an ACC view at cycle t. -/
def State.accFillers (s : State) (n t : Nat) : List ECmd :=
  let v := s.cc.vreg n
  if vType v = 8 then fillingAt (s.peers s.ct.arr) t ((vBase v - 0x20000) / 2048) (vRows v + 1) else []

/-- The views a command reads as sources, which a false guard leaves to check (R343).  Under a false guard a descriptor that a check of its
own would refuse names none. -/
def State.linkSourceViews (s : State) (k : LinkKind) (g : Guard) (base : Nat) (b : List Byte) (d : LinkD) : Option Trap :=
  if !s.cc.guard g && (d.bad s k b || (State.descAlign base).isSome || (s.descProt base 48).isSome) then none
  else
    match k with
    | .send => if d.chunk then orTrap (s.viewCheck slM d.view) (if d.fmt = 2 then s.viewCheck slM d.view2 else none) else none
    | .red => s.viewCheck slM d.view
    | _ => none

/-- The checks of R202 on the views of a command, in the descriptor's order. -/
def State.linkViews (s : State) (k : LinkKind) (d : LinkD) : Option Trap :=
  match k with
  | .red =>
    orTrap (s.viewCheck slM d.view)
      (if d.out = 3 then s.viewCheck slM d.view2 else if d.out = 4 then s.viewCheckSpan slM d.view2 8192 else none)
  | .bcst => none
  | _ => if d.chunk then orTrap (s.viewCheck slM d.view) (if d.fmt = 2 then s.viewCheck slM d.view2 else none) else none

/-- Type rules (R474, R475). -/
def State.linkTypes (s : State) (k : LinkKind) (d : LinkD) : Option Trap :=
  let v := s.cc.vreg d.view
  let v2 := s.cc.vreg d.view2
  let ok : Bool := match k with
    | .bcst => true
    | .red =>
      [8, 0, 1, 6, 5].contains (vType v) && (d.out != 3 || vType v2 == 0) && (d.out != 4 || vType v2 == 2)
    | _ =>
      !d.chunk || (vType v == chunkType d.fmt && (d.fmt != 2 || vType v2 == 4)
        && (k != .send || (vRows v == 15 && vCols v == 63)))
  if ok then none else some (illegal5 slM)

/-- The bank of an LRED is used for format L input or output. -/
def LinkD.usesBank (d : LinkD) (k : LinkKind) : Bool := k == .red && (d.fmt == 2 || d.out == 2)

/-- CODEBOOK 0x01 of a format L output whose bank lacks a valid zero or non-zero entry in a term (R70). -/
def State.linkBank (s : State) (k : LinkKind) (d : LinkD) : Option Trap :=
  if k = .red && d.out = 2 then
    let b := s.ct.bank d.cb
    ((List.range 2).find? (fun t => !termOk (termsOf (b.plane b.act) t))).map (fun t => ⟨5, 1, slM, d.cb + 16 * (16 * t), 0⟩)
  else none

/-- Accepted link commands of the field, on any of its tiles, that hold a guard interval these plans meet (R62). -/
def State.guardHolders (s : State) (l : List MeshSlot) : List ECmd :=
  (s.peers (s.cfield.tiles.flatMap (fun t => (s.tile t).link))).filter (fun c => c.slots.any (fun x => l.any (·.meet x)))

/-- Broadcast hops too short for the receiving port's latency (R72). -/
def State.hopShort (s : State) (k : LinkKind) (d : LinkD) : Bool :=
  k == .bcst && (match d.recv s with
    | some p => decide (s.torus.hop < (s.port p).lat + 16)
    | none => false)

def State.linkTiming (s : State) (k : LinkKind) (d : LinkD) (t : Int) : Option Trap :=
  let n := t.toNat
  allTraps [
    lateTrap slM t s.enow,
    s.conflict slM 2 t (pcsOf (s.stillWriting n (s.linkSources k d)
      ++ (if k = .red || (k = .send && d.chunk) then s.accFillers d.view n else []))),
    (if (k = .red && decide (d.out ≤ 2) && decide (s.forwardStart d n < ((s.arrLast k d n + 20 : Nat) : Int))) || s.hopShort k d
      then some (timing slM 2 t none) else none),
    s.conflict slM 3 t (pcsOf (s.guardHolders ((s.plansOf k d n).map (·.guard (s.frameZero s.cfrozen)))
      ++ (if k = .recv && d.chunk then s.accFillers d.view (s.linkDone k d n) else []))),
    boundTrap s slM t s.ct.link]

/-- The checks of R458 on a link command. -/
def State.linkChk (s : State) (k : LinkKind) (g : Guard) (dr : BitVec 5) (tm : Timing) : Option Trap :=
  let base := s.descBase dr
  let b := s.descBytesAt base 48
  let d := linkD b
  let t := s.estart tm
  s.achk g none
    (allTraps [
      s.startTrap slM tm,
      (if k = .red && decide (d.out ≤ 2) && !bitAt d.fstart 20 && s.cc.sys && s.cfrozen then some ⟨1, 7, slM, 0, 0⟩ else none),
      (if d.bad s k b then some (illegal5 slM) else none)])
    (s.linkSourceViews k g base b d)
    (allTraps [
      s.linkViews k d, s.linkTypes k d,
      (if d.usesBank k && !s.ownsBank d.cb then some ⟨2, 2, slM, d.cb, 0⟩ else none),
      s.linkPriv k d, State.descAlign base, s.descProt base 48,
      (if (k = .send || k = .recv) && !d.chunk && !d.glob then (s.badSp d.addr d.len).map (protScratch slM) else none),
      s.linkBank k d, s.linkTiming k d t,
      s.powerTrap slM s.cf 2 (s.chargesL k d t.toNat)])

/-! ## Acceptance -/

def ECmd.linkKind (c : ECmd) : LinkKind :=
  match c.ins with
  | .lsend .. => .send
  | .lrecv .. => .recv
  | .lred .. => .red
  | _ => .bcst

def ECmd.linkD (c : ECmd) : LinkD := Machine.linkD (c.vals.flatMap (fun v => leBytes 8 v.toNat))

/-- The completion event of a command. -/
def linkEnd (k : LinkKind) (t : BitVec 8) (id : Nat) : Instr :=
  match k with
  | .send => .lsendComplete t id
  | .recv => .lrecvComplete t id
  | .red => .lredComplete t id
  | .bcst => .lbcstComplete t id

/-! ## Flits received (R61, R65) -/

def ECmd.got (c : ECmd) (k : Nat) : Bool := c.sums.rd 0 k != 0
def ECmd.flit (c : ECmd) (k : Nat) : List Byte := c.data.bytes (64 * k) 64
def ECmd.recvN (c : ECmd) : Nat := ((c.plans.find? (fun p => !p.out)).map (·.n)).getD 0
def ECmd.lostN (c : ECmd) : Nat := ((List.range c.recvN).filter (fun k => !c.got k)).length

/-- Accept flit k of a command. -/
def ECmd.accept (c : ECmd) (k : Nat) (bs : List Byte) : ECmd :=
  { c with sums := c.sums.wr 0 k 1, data := c.data.setBytes (64 * k) (bytesAt bs 0 64) }

/-- The tcyc of a field at which device cycle d fell: in the run that it is in, or in an earlier one, before the freeze that ended it
(R65). -/
def Field.depTcyc (f : Field) (d : Int) : Option Nat :=
  if f.ticking && decide ((f.tcStop : Int) ≤ d - (f.tcZero : Int)) then some (d - (f.tcZero : Int)).toNat
  else
    (f.runs.find? (fun r => decide ((r.2.1 : Int) ≤ d - (r.1 : Int)) && decide (d - (r.1 : Int) < (r.2.2 : Int)))).map
      (fun r => (d - (r.1 : Int)).toNat)

/-- The number, in a receiving command's clock, of data slot j of the frame stamped with global cycle g. -/
def State.arrivalNumber (s : State) (t : Nat) (c : ECmd) (d g j : Nat) : Option Nat :=
  if c.dclk then some ((d - 1) * (g / 4) + (j - 1))
  else ((s.field (s.ctx t c.hw).fieldNum).depTcyc ((g : Int) + s.gzero)).map (fun x => (d - 1) * (x / 4) + (j - 1))

/-- The receiving plan of a command that a port's slots can match: planned with the lanes and latency that hold (R55). -/
def ECmd.recvOn (c : ECmd) (port d lat : Nat) : Option LinkPlan :=
  c.plans.find? (fun p => !p.out && p.port == port && p.s == d && p.lat == lat)

/-- Offer a data flit to a receiving command of a tile: it takes flit k of a transfer of its tag in the k-th of its slots (R61). -/
def State.offer (s : State) (port : Nat) (x : Flit) (t : Nat) (c : ECmd) : ECmd :=
  match c.recvOn port x.s x.lat, s.arrivalNumber t c x.s x.frame x.slot with
  | some p, some n =>
    if !c.stopped && x.tag == c.linkD.tag && n == p.first + x.pos && decide (x.pos < p.n) then c.accept x.pos x.bytes else c
  | _, _ => c

/-- A command that is accepted takes what its port's buffer already holds of it (R61, R65). -/
def State.offerHeld (s : State) (t : Nat) (c : ECmd) : ECmd :=
  match c.plans.find? (fun p => !p.out) with
  | none => c
  | some p => (s.port p.port).buf.foldl (fun c x => s.offer p.port x t c) c

/-- The banks a command expands through, bound to their active planes at issue (R264). -/
def State.linkBound (s : State) (k : LinkKind) (d : LinkD) (v : W64) : List (Nat × Nat) :=
  let bind (b : Nat) : Nat × Nat := (b, (s.ct.bank b).act)
  if k = .red then
    (if d.usesBank k then [bind d.cb] else []) ++ (if vType v = 5 || vType v = 6 then [bind (vCb v)] else [])
  else []

/-- A link command of the issuing context: its descriptor's bytes, its views, and its slots (R61). -/
def State.linkCmd (s : State) (k : LinkKind) (i : Instr) (b : List Byte) (views : List W64) (t : Nat) (set : RegSetId) : ECmd :=
  let d := linkD b
  let v := (views[0]?).getD 0
  let plans := s.plansOf k d t
  let last := s.linkDone k d t
  { s.newCmd i t last with
    vals := (List.range 6).map (fun j => .ofNat 64 (numAt b (8 * j) 8)),
    views := views,
    bound := s.linkBound k d v,
    expand := (if k = .red then s.arrLast k d t else t),
    fwd := (if k = .red && d.out ≤ 2 then some (s.forwardStart d t).toNat else none),
    dst := linkDests k d s.cur.hw v ((views[1]?).getD 0), ready := last,
    slots := plans.map (·.guard (s.frameZero s.cfrozen)), plans := plans, set := set }

/-- Accept a link command (R206, R208): it starts at T and completes at its fixed cycle. -/
def State.acceptLink (s : State) (k : LinkKind) (i : Instr) (dr dd : BitVec 5) (tm : Timing) : State :=
  let b := s.descBytesAt (s.descBase dr) 48
  let d := linkD b
  let t := (s.estart tm).toNat
  let c := s.linkCmd k i b [s.cc.vreg d.view, s.cc.vreg d.view2] t (s.cc.sSet dd.toNat)
  let clk := s.eclk
  let tile : BitVec 8 := .ofNat 8 s.cur.tile
  let s := (s.payPower s.cf 2 (s.chargesL k d t)).modCT (fun x => { x with link := x.link ++ [s.offerHeld s.cur.tile c] })
  (({ s with nextId := s.nextId + 1 }).at clk t phEngine (.linkTransferStart tile c.id)).at clk c.last phLand (linkEnd k tile c.id)

def chkLsend (g : Guard) (dr : BitVec 5) (tm : Timing) (s : State) : Option Trap := s.linkChk .send g dr tm
def chkLrecv (g : Guard) (dr : BitVec 5) (tm : Timing) (s : State) : Option Trap := s.linkChk .recv g dr tm
def chkLred (g : Guard) (dr : BitVec 5) (tm : Timing) (s : State) : Option Trap := s.linkChk .red g dr tm
def chkLbcst (g : Guard) (dr : BitVec 5) (tm : Timing) (s : State) : Option Trap := s.linkChk .bcst g dr tm

def execLsend (g : Guard) (dr d : BitVec 5) (e : BitVec 4) (tm : Timing) (s : State) : Out3 :=
  s.slot g (chkLsend g dr tm s) (fun s => s.acceptLink .send (.lsend g dr d e tm) dr d tm)
def execLrecv (g : Guard) (dr d : BitVec 5) (e : BitVec 4) (tm : Timing) (s : State) : Out3 :=
  s.slot g (chkLrecv g dr tm s) (fun s => s.acceptLink .recv (.lrecv g dr d e tm) dr d tm)
def execLred (g : Guard) (dr d : BitVec 5) (e : BitVec 4) (tm : Timing) (s : State) : Out3 :=
  s.slot g (chkLred g dr tm s) (fun s => s.acceptLink .red (.lred g dr d e tm) dr d tm)
def execLbcst (g : Guard) (dr d : BitVec 5) (e : BitVec 4) (tm : Timing) (s : State) : Out3 :=
  s.slot g (chkLbcst g dr tm s) (fun s => s.acceptLink .bcst (.lbcst g dr d e tm) dr d tm)

/-! ## Chunks (R66) -/

def chunkHeader (cmap fmt q num : Nat) : List Byte :=
  withSeal (leBytes 4 cmap ++ leBytes 1 fmt ++ leBytes 1 q ++ leBytes 2 num)

/-! ## Widening (R67) -/

/-- Status bits [51:48] of the completion word, as a number from bit 0. -/
def stPartial : Nat := 1
def stRange : Nat := 2
def stNan : Nat := 4
def stHdr : Nat := 8

/-- Format B: truncate v × 2^Q toward zero, saturating. -/
def widenF (q : Nat) : Fv → Int × Nat
  | .nan => (0, stNan)
  | .inf _ => (0, stNan)
  | .num neg m e _ =>
    let x : Int := e + q
    let n := if 0 ≤ x then m * 2 ^ x.toNat else m / 2 ^ (-x).toNat
    if 2 ^ 47 ≤ n then (signed neg (2 ^ 47 - 1), stRange) else (signed neg n, 0)

/-- Format L: one term under a block offset. -/
def widenTerm (q : Nat) (b : Int) (t : Term) : Int × Nat :=
  if !t.valid then (0, stHdr)
  else if t.zero then (0, 0)
  else let (x, r) := cellRule (t.e + b) q t.sign; (x, if r then stRange else 0)

/-- Two terms of an index, added. -/
def widenIdx (q : Nat) (b : Int) (ts0 : List Term) (ts1 : Option (List Term)) (i : Nat) : Int × Nat :=
  let z : Term := ⟨false, true, false, 0⟩
  let (x, f) := widenTerm q b ((ts0[i % 16]?).getD z)
  match ts1 with
  | none => (x, f)
  | some ts => let (y, g) := widenTerm q b ((ts[i / 16]?).getD z); (x + y, Nat.lor f g)

/-! ## The start of a command (R61, R206) -/

/-- Where an LRED keeps its local contribution and its bank's entries, and where an output's bytes begin in `data`. -/
def keyLocal : Nat := 2 ^ 21
def keyBank : Nat := 2 ^ 22
def outBase : Nat := 2 ^ 26

/-- Committed bytes for class L: a line elsewhere reads freely, as does one that must wait for its channel beyond the cycle of the sample
(R98), an absent or violating one as zero (log entries 1, 39). -/
def State.linkRead (s : State) (who : Who) (a n : Nat) : List Byte × State :=
  let addrs := (List.range n).map (fun k => (a + k) % 2 ^ 64)
  let (l, s) := s.xlLines who false (linesOfAddrs addrs)
  l.foldl (fun (acc : List (Nat × Byte) × State) e =>
    let mine := addrs.filter (fun x => x / 128 == e.1)
    if e.2 == .remote || acc.2.linesBusy [e] false then
      let (k, s) := acc.2.drawFree
      (acc.1 ++ mine.map (fun x => (x, .ofNat 8 (k / 2 ^ (8 * (x % 128))))), s)
    else (acc.1 ++ mine.map (fun x => (x, (acc.2.kByte l [] x).getD 0)), acc.2)) ([], s)
  |> fun r => (addrs.map (fun x => ((r.1.find? (fun c => c.1 == x)).map (·.2)).getD 0), r.2)

/-- The payload of a chunk form, from its views (R474). -/
def chunkBytes (fmt : Nat) (v v2 : TileCopy) : List Byte :=
  let at_ (q : TileCopy) (k : Nat) : Nat := if vActive q.view (k / 64) (k % 64) then q.elem (k / 64) (k % 64) else 0
  if fmt = 0 then (List.range 1024).flatMap (fun k => leBytes 6 (at_ v k))
  else if fmt = 1 then (List.range 1024).flatMap (fun k => leBytes 2 (at_ v k))
  else (List.range 1024).flatMap (fun k => leBytes 1 (at_ v k)) ++ (List.range 128).flatMap (fun k => leBytes 1 (at_ v2 k))

/-- The terms of a bound plane. -/
def ECmd.boundTerms (x : Tile) (c : ECmd) (k t : Nat) : List Term :=
  let (b, p) := (c.bound[k]?).getD (0, 0)
  termsOf ((x.bank b).plane p) t

/-- The local contribution of an LRED: (element, 48-bit value), and its status (R67, R68). -/
def localWide (c : ECmd) (x : Tile) (q : Nat) (v : TileCopy) : Table Nat × Nat :=
  let k := c.bound.length - 1
  let ty := vType v.view
  let t0 := if ty = 5 || ty = 6 then c.boundTerms x k 0 else []
  let t1 := if ty = 6 then some (c.boundTerms x k 1) else none
  (activeElems v.view).foldl (fun (acc : Table Nat × Nat) p =>
    let e := v.elem p.1 p.2
    let (y, f) : Int × Nat :=
      if ty = 8 then (asSigned 48 e, 0)
      else if ty = 0 then widenF q (fp32.value e)
      else if ty = 1 then widenF q (bf16.value e)
      else widenIdx q 0 t0 t1 e
    (acc.1.wr 0 (keyLocal + 64 * p.1 + p.2) (wrap 48 y), Nat.lor acc.2 f)) ([], 0)

/-- LINK_TRANSFER_START: the source is sampled at T (R61). -/
def State.startLink (s : State) (t id : Nat) : State :=
  match findE (s.tile t).link id with
  | none => s
  | some c =>
    if c.started then s else
    let d := c.linkD
    let cx := s.ctx t c.hw
    let x := s.tile t
    let view (k : Nat) : TileCopy :=
      let v := (c.views[k]?).getD 0
      if vType v = 8 then readTile cx x v
      else ⟨v, Mem.setBytes [] 0 ((List.range (footprint (vType v))).map (fun j => regByte cx x c.sysw (vBase v + j)))⟩
    let put (s : State) (c : ECmd) : State := s.modTile t (fun x => { x with link := putE x.link { c with started := true } })
    match c.linkKind with
    | .recv => put s c
    | .send =>
      if d.chunk then
        put s { c with data := Mem.setBytes [] outBase (chunkHeader (2 ^ d.cidx) d.fmt d.q d.num ++ chunkBytes d.fmt (view 0) (view 1)) }
      else if d.glob then
        let (bs, s) := s.linkRead (whoOf c.sys) d.addr d.len
        put s { c with data := Mem.setBytes [] outBase bs }
      else
        let l := d.addr / 16
        let (bs, s) := s.spSample t (s.memberOf t c.hw) false (c.issue == s.cmdNow t c) (linesFrom l ((d.addr + d.len + 15) / 16 - l))
        put s { c with data := Mem.setBytes [] outBase ((bs.drop (d.addr % 16)).take d.len) }
    | .red =>
      let (w, f) := localWide c x d.q (view 0)
      let (b, p) := (c.bound[0]?).getD (0, 0)
      let bank := if d.usesBank .red then
          (numbered keyBank ((List.range 32).map (fun i => ((x.bank b).entry p i).toNat))).filter (fun e => e.2 != 0) else []
      put s { c with sums := c.sums ++ w ++ bank, status := f }
    | .bcst =>
      if d.isRoot s then
        let lo := 65536 * d.slot
        let n := 65536 * d.count
        let w := (s.tile d.tile).weight.filter (fun e => decide (lo ≤ e.1) && decide (e.1 < lo + n))
        put s { c with data := w.map (fun e => (outBase + (e.1 - lo), e.2)) }
      else put s c

def execLinkTransferStart (tile : BitVec 8) (id : Nat) (s : State) : Out3 := .next (s.startLink tile.toNat id)

/-! ## Completion (R63, R64) -/

/-- Write the completion word, count the event, and collect the status bits in lkstat (R64, R396). -/
def State.linkWord (s : State) (t : Nat) (c : ECmd) (d : BitVec 5) (e : BitVec 4) (cmap lost status : Nat) : State :=
  let w := cmap + 2 ^ 32 * min lost 0xFFFF + 2 ^ 48 * status
  s.modCtx t c.hw (fun x =>
    let x := x.putS c.set d.toNat (.ofNat 64 w)
    let x := { x with lkstat := x.lkstat ||| BitVec.ofNat 32 status }
    x.count e.toNat 1)

def State.dropLink (s : State) (t id : Nat) : State := s.modTile t (fun x => { x with link := dropE x.link id })

/-- A command that has completed holds its guard intervals as long as that of a new command, from 8 cycles before
its first slot, can meet them (R62), and then is gone. -/
def State.endLink (s : State) (t : Nat) (c : ECmd) (ev : Instr) : State :=
  let freed := maxNat (c.slots.map (fun x => x.start + x.n)) + 8
  if freed ≤ s.cmdNow t c then s.dropLink t c.id
  else (s.modTile t (fun x => { x with link := putE x.link { c with stopped := true } })).at (s.cmdClk t c) freed phLand ev

def execLsendComplete (tile : BitVec 8) (id : Nat) (s : State) : Out3 :=
  let t := tile.toNat
  match findE (s.tile t).link id with
  | none => .next s
  | some c =>
    match c.ins with
    | .lsend _ _ d e _ =>
      .next (if c.stopped then s.dropLink t id else (s.linkWord t c d e 0 0 0).endLink t c (.lsendComplete tile id))
    | _ => .next s

/-- A received chunk's header agrees with the command (R64, R474). -/
def headerOk (h : List Byte) (d : LinkD) : Bool :=
  sealed h && numAt h 4 1 == d.fmt && numAt h 5 1 == d.q && numAt h 6 2 == d.num

/-- Payload bytes of a received chunk. -/
def ECmd.payload (c : ECmd) : Mem := c.data.filterMap (fun e => if 64 ≤ e.1 && e.1 < outBase then some (e.1 - 64, e.2) else none)

/-- What an LRECV of a chunk writes through its views (R474). -/
def recvCells (fmt : Nat) (m : Mem) (v v2 : W64) : List MaskedByte :=
  if fmt = 0 then (activeElems v).flatMap (fun p => elemCells v p.1 p.2 (wrap 64 (asSigned 48 (m.num (6 * (64 * p.1 + p.2)) 6))))
  else if fmt = 1 then (activeElems v).flatMap (fun p => elemCells v p.1 p.2 (m.num (2 * (64 * p.1 + p.2)) 2))
  else
    (activeElems v).flatMap (fun p => elemCells v p.1 p.2 (m.byte (64 * p.1 + p.2)).toNat)
      ++ ((activeElems v2).filter (fun p => decide (64 * p.1 + p.2 < 128))).flatMap
        (fun p => elemCells v2 p.1 p.2 (m.byte (1024 + 64 * p.1 + p.2)).toNat)

/-- Write what a link command receives into register space; system code's alias writes during a freeze take bit 48 too (R332). -/
def State.putView (s : State) (t : Nat) (c : ECmd) (cells : List MaskedByte) : State :=
  let (x, y) := putCells c.sysw (c.sys && c.dclk) cells (s.ctx t c.hw, s.tile t)
  (s.setCtx t c.hw x).setTile t y

/-- Write the bytes of each accepted flit of a raw receive. -/
def State.putRaw (s : State) (t : Nat) (c : ECmd) (d : LinkD) : State :=
  let cells := ((List.range c.recvN).filter c.got).flatMap (fun k => numbered (d.addr + 64 * k) (c.flit k))
  if d.glob then
    let cells := cells.map (fun x => (x.1 % 2 ^ 64, x.2))
    let (l, s) := s.xlLines (whoOf c.sys) true (linesOfAddrs (cells.map (·.1)))
    s.kWrite l 2 (writerOf (s.ctx t c.hw).fieldNum (s.relOf t c.hw)) c.seq cells
  else
    let m := s.memberOf t c.hw
    s.modTile t (fun x => x.spWrite s.now false (cells.map (fun p => (spPhys m p.1, p.2))))

def execLrecvComplete (tile : BitVec 8) (id : Nat) (s : State) : Out3 :=
  let t := tile.toNat
  match findE (s.tile t).link id with
  | none => .next s
  | some c =>
    match c.ins with
    | .lrecv _ _ dd e _ =>
      let d := c.linkD
      let s := s.endLink t c (.lrecvComplete tile id)
      if c.stopped then .next s
      else if d.chunk then
        let hdr := c.got 0 && !headerOk (c.flit 0) d
        let s := if c.lostN = 0 && !hdr then
            s.putView t c (recvCells d.fmt c.payload ((c.views[0]?).getD 0) ((c.views[1]?).getD 0)) else s
        .next (s.linkWord t c dd e 0 c.lostN (if hdr then stHdr else 0))
      else .next ((s.putRaw t c d).linkWord t c dd e 0 c.lostN 0)
    | _ => .next s

/-! ## A reduction hop (R67 to R70, R475) -/

/-- The received elements, widened: a value per element and the status. -/
def ECmd.widenIn (c : ECmd) (d : LinkD) : List Int × Nat :=
  let m := c.payload
  let term (k : Nat) : List Term := (List.range 16).map (fun i => termOf (c.sums.rd 0 (keyBank + 16 * k + i)))
  let t0 := term 0
  let t1 := term 1
  let xs := (List.range 1024).map (fun k =>
    if d.fmt = 0 then (asSigned 48 (m.num (6 * k) 6), 0)
    else if d.fmt = 1 then widenF d.q (bf16.value (m.num (2 * k) 2))
    else widenIdx d.q (asSigned 8 (m.byte (1024 + k / 8)).toNat) t0 (some t1) (m.byte k).toNat)
  (xs.map (·.1), xs.foldl (fun f x => Nat.lor f x.2) 0)

/-- One term of R70: the valid entry of the sign of y whose e + b is nearest 8 × log2 |y × 2^−Q|, else the zero entry. -/
def quantTerm (ts : List Term) (q : Nat) (b y : Int) : Nat :=
  let z := (zeroIdx ts).getD 0
  if y = 0 then z else (nearest ts b (decide (y < 0)) y.natAbs (-(q : Int))).getD z

/-- Quantise a block of eight sums (R70): the eight index bytes and the block offset. -/
def quantBlock (ts0 ts1 : List Term) (q : Nat) (ss : List Int) : List Nat × Int :=
  let g := ((ss.filter (· != 0)).map (fun x => nearestEighths x.natAbs (-(q : Int)))).max?
  let b := match g with
    | none => 0
    | some g => clampI (-128) 127 (g - (etop ts0).getD 0)
  (ss.map (fun x =>
    let i := quantTerm ts0 q b x
    let w := (widenTerm q b ((ts0[i]?).getD ⟨false, true, false, 0⟩)).1
    i + 16 * quantTerm ts1 q b (x - w)), b)

/-- The payload a hop forwards (R69). -/
def hopBytes (out q : Nat) (ts0 ts1 : List Term) (ss : List Int) : List Byte :=
  if out = 0 then ss.flatMap (fun x => leBytes 6 (wrap 48 x))
  else if out = 1 then
    ss.flatMap (fun x => leBytes 2 (bf16.round false (.num (decide (x < 0)) x.natAbs (-(q : Int)) false)).1)
  else
    let blocks := (List.range 128).map (fun j => quantBlock ts0 ts1 q ((ss.drop (8 * j)).take 8))
    blocks.flatMap (fun b => b.1.flatMap (leBytes 1)) ++ blocks.flatMap (fun b => leBytes 1 (wrap 8 b.2))

/-- The tile a hop writes: FP32, or 8-byte slots (R69, R475). -/
def hopCells (out q : Nat) (v : W64) (ss : List Int) : List MaskedByte :=
  (activeElems v).flatMap (fun p =>
    let x := (ss[64 * p.1 + p.2]?).getD 0
    if out = 3 then elemCells v p.1 p.2 (fp32.round false (.num (decide (x < 0)) x.natAbs (-(q : Int)) false)).1
    else (numbered (vBase v + 8 * (64 * p.1 + p.2)) (leBytes 8 (wrap 64 x))).map (fun c => ⟨c.1, 255, c.2⟩))

/-- The hop sums, the contributor bitmap and the status of an LRED whose flits are in (R68). -/
def ECmd.hop (c : ECmd) (d : LinkD) : List Int × Nat × Nat :=
  let hdr := c.got 0 && !headerOk (c.flit 0) d
  let bad := hdr || decide (0 < c.lostN)
  let (xs, f) : List Int × Nat := if bad then (List.replicate 1024 0, stPartial + (if hdr then stHdr else 0)) else c.widenIn d
  let ss := (numbered 0 xs).map (fun p => asSigned 48 (wrap 48 (p.2 + (c.sums.rd 0 (keyLocal + p.1) : Nat))))
  (ss, Nat.lor (if bad then 0 else numAt (c.flit 0) 0 4) (2 ^ d.cidx), Nat.lor c.status f)

/-- LRED_COMPLETE: the hop at a_last + 20.  A command that forwards stays until its forward's guard interval has passed. -/
def execLredComplete (tile : BitVec 8) (id : Nat) (s : State) : Out3 :=
  let t := tile.toNat
  match findE (s.tile t).link id with
  | none => .next s
  | some c =>
    match c.ins with
    | .lred _ _ dd e _ =>
      if c.stopped then .next (s.dropLink t id)
      else
        let d := c.linkD
        let (ss, cmap, st) := c.hop d
        let s := s.linkWord t c dd e cmap c.lostN st
        if d.out ≤ 2 then
          let term (k : Nat) : List Term := (List.range 16).map (fun i => termOf (c.sums.rd 0 (keyBank + 16 * k + i)))
          let bs := chunkHeader cmap d.out d.q d.num ++ hopBytes d.out d.q (term 0) (term 1) ss
          .next (s.endLink t { c with data := c.data.setBytes outBase bs } (.lredComplete tile id))
        else .next ((s.putView t c (hopCells d.out d.q ((c.views[1]?).getD 0) ss)).endLink t c (.lredComplete tile id))
    | _ => .next s

/-- Bytes that an earlier LBCST, WSTORE or CPY of the context has still to write count as written before an LBCST's (R452). -/
def State.overtakeW (s : State) (t : Nat) (c : ECmd) (addrs : List Nat) : State :=
  let s := s.modTile t (fun y => { y with link := y.link.map (fun x =>
    if x.hw == c.hw && decide (x.seq < c.seq) && x.linkKind == .bcst then { x with cells := addrs.map (⟨·, 255, 0⟩) ++ x.cells } else x) })
  { s with cmds := s.cmds.map (fun x =>
      if x.tile = t && x.hw == c.hw && decide (x.seq < c.seq) then
        (match x.ins with
        | .wstore .. => { x with cells := x.cells.filter (fun m => !addrs.contains m.addr) }
        | .cpy .. => { x with cells := x.cells.filter (fun m => !addrs.contains m.addr), fset := addrs ++ x.fset }
        | _ => x)
      else x) }

/-- LBCST_COMPLETE: the slots are written but for the bytes of lost flits (R73), and those that a later command of the context has
written before. -/
def execLbcstComplete (tile : BitVec 8) (id : Nat) (s : State) : Out3 :=
  let t := tile.toNat
  match findE (s.tile t).link id with
  | none => .next s
  | some c =>
    match c.ins with
    | .lbcst _ _ dd e _ =>
      if c.stopped then .next (s.dropLink t id) else
      let d := c.linkD
      let n := if d.isRoot s then 0 else d.flits .bcst
      let lost := ((List.range n).filter (fun k => !c.got k)).length
      let cells := (((List.range n).filter c.got).flatMap (fun k => numbered (65536 * d.slot + 64 * k) (c.flit k))).filter
        (fun b => !c.cells.any (·.addr == b.1))
      let s := if d.isRoot s then s
        else
          (if d.tile = t then s.overtakeW t c (cells.map (·.1)) else s).modTile d.tile (fun x => { x with weight := x.weight.setCells cells })
      .next ((s.linkWord t c dd e 0 lost 0).endLink t c (.lbcstComplete tile id))
    | _ => .next s

/-! ## Flits sent (R48, R61, R72) -/

/-- The number, in a command's own clock, of the data slot j of the frame that begins at global cycle 4f. -/
def State.slotNumber (s : State) (t : Nat) (c : ECmd) (d f j : Nat) : Option Nat :=
  if c.dclk then some ((d - 1) * f + (j - 1))
  else
    let x := s.field (s.ctx t c.hw).fieldNum
    let z : Int := 4 * f + s.gzero - (x.tcZero : Int)
    if x.ticking && decide (0 ≤ z) then some ((d - 1) * (z.toNat / 4) + (j - 1)) else none

/-- The flit a command puts into a slot of a port: its tag and bytes.  A relay forwards only what it received. -/
def State.flitOf (s : State) (t : Nat) (port d f j : Nat) (c : ECmd) : Option (Nat × List Byte) :=
  match s.slotNumber t c d f j with
  | none => none
  | some n =>
    match c.plans.find? (fun p => p.out && p.port == port && p.s == d && decide (p.first ≤ n) && decide (n < p.first + p.n)) with
    | none => none
    | some p =>
      let k := n - p.first
      let k2 := c.linkKind
      if !c.started then none
      else if k2 == .bcst && !(c.linkD).isRoot s then (if c.got k then some (c.linkD.tag, c.flit k) else none)
      else if k2 == .red && !c.stopped then none
      else some (c.linkD.tag, c.data.bytes (outBase + 64 * k) 64)

/-- A port's slot belongs to an accepted transfer, whether or not it carries a flit (R161). -/
def State.slotTaken (s : State) (t : Nat) (port d f j : Nat) (c : ECmd) : Bool :=
  match s.slotNumber t c d f j with
  | none => false
  | some n => c.plans.any (fun p => p.out && p.port == port && p.s == d && decide (p.first ≤ n) && decide (n < p.first + p.n))

end Sys2Proof.Machine
end

