-- ==== Sys2Proof/Machine/Torus.lean ====
section
/-! DEFINITION. Torus ports and global time (02_torus.md): training, the time base, frames, time flits and data flits. -/

namespace Sys2Proof.Machine

open Sys2Proof

/-! ## Degradation (R34, R38 to R43) -/

/-- A counter as it reads: committed plus shadow, saturating (R38, R39). -/
def Scorebook.value (b : Scorebook) (i : Nat) : Nat := min (2 ^ 64 - 1) ((b.counters.rd 0 i).toNat + (b.shadow.rd 0 i).toNat)

/-- PKG_STAT.REPLACE (R22, R40). -/
def Scorebook.replace (b : Scorebook) : Bool := (List.range 6).any (fun k => b.value (0x030 + k) != 0)

/-- A degradation event: its counter, DEGNEW and a health notification (R34). -/
def State.degrade (s : State) (i n : Nat) : State := if n = 0 then s else (s.bump i n).setDegnew

def State.sbMap (s : State) (i v : Nat) : State := { s with sb := { s.sb with map := s.sb.map.wr 0 i (.ofNat 64 v) } }

/-! ## Training (R47, R53 to R55, R136) -/

/-- Ports of dimensions whose extent is above 1: the others stay down (R136). -/
def State.livePorts (s : State) : List Nat := (List.range 6).filter (fun p => decide (1 < s.extent (p / 2)))

/-- TOR_DIMS and TOR_COORD agree with R53 as far as one package can tell. -/
def State.torusOk (s : State) : Bool :=
  decide (s.pkgCount ≤ 1024) && (List.range 3).all (fun k => decide (s.coordOf k < s.extent k))
    && (!s.livePorts.isEmpty || s.torus.root)

/-- Training stops, and TOR_STAT.CFGERR shows it until TRAIN is written again (R47, R53, R136). -/
def State.trainingFails (s : State) : State :=
  { s with torus := { s.torus with training := false } }.setCfgerr

/-- TOR_TRAIN: a write of 1 to TOR_CTL.TRAIN starts training of all ports (R52, R53, R136). -/
def execTorTrain (s : State) : Out3 :=
  if !s.bar0Writes || (s.hport.stage != 4 && s.hport.stage != 5) then .next s
  else
    let s := { s with torus := { s.torus with training := true, timed := false } }
    if !s.torusOk then .next s.trainingFails
    else if s.livePorts.isEmpty then .next (s.at none s.now phDevice .timeBaseStart)
    else .next (s.livePorts.foldl (fun s p => s.modPort p (fun x => { x with up := false, trained := false })) s)

/-- Every port that trains has trained. -/
def State.allTrained (s : State) : Bool := s.livePorts.all (fun p => (s.port p).trained)

/-- What a completed training leaves in a port. -/
def Port.trainedAs (x : Port) (r : Training) : Port :=
  { x with
    up := true, lanes := r.lanes.toNat, lat := r.lat.toNat, epoch := (x.epoch + 1) % 256, badLanes := r.bad,
    peer := r.peer.toNat, cabled := true, trained := true, devRun := 0, losses := [], rx := none,
    frac := r.frac.toNat + r.carry.toNat }

/-- PORT_TRAINING_DONE (R47, R53, R54, R55, R43): what training found on a port, as the outside reports it.  A port cabled otherwise
than R47 says fails, and so does a torus with more or fewer than one time root.  A port that already trained on 12 lanes has not lost
lanes again (R34). -/
def execPortTrainingDone (port : BitVec 3) (r : Training) (s : State) : Out3 :=
  let p := port.toNat
  if !s.livePorts.contains p || !r.ok then .next s
  else if !r.cabled || r.roots + b2n s.torus.root ≠ 1 then
    .next (s.modPort p (fun x => { x with up := false, cabled := r.cabled })).trainingFails
  else
    let narrowed := r.lanes.toNat == 12 && fld (s.sb.map.rd 0 (0x3000 + p)).toNat 16 5 != 12
    let s := s.modPort p (·.trainedAs r)
    let s := { s with torus := { s.torus with rootAt := if s.torus.root then s.torus.coord.setWidth 15 else r.root } }
    let s := s.sbMap (0x3000 + p) (r.bad.toNat + 2 ^ 16 * r.lanes.toNat)
    let s := s.degrade 0x035 (b2n narrowed)
    .next (if s.torus.training && s.allTrained && s.torus.root then s.at none s.now phDevice .timeBaseStart else s)

/-- PORT_RETRAIN (R55): every slot that falls in the retraining is lost. -/
def execPortRetrain (port : BitVec 3) (s : State) : Out3 :=
  .next (s.modPort port.toNat (fun x => { x with up := false, trained := false, losses := [], devRun := 0, rx := none }))

/-! ## The time base (R57, R136) -/

/-- Queues that hold packets to read (R119). -/
def State.readQueues (s : State) : State :=
  s.hport.queues.foldl (fun s e =>
    if e.2.en && e.2.head != e.2.tail && !e.2.err then s.at none s.now phDevice (.slotRead (.ofNat 10 e.1)) else s) s

/-- The base runs: TIMED, and in bring-up READY and stage 5; the queues are served, windows and frames begin. -/
def State.baseUp (s : State) (zero : Int) : State :=
  let s := { s with
    gzero := zero, torus := { s.torus with timed := true, training := false },
    pkg := { s.pkg with ready := true }, hport := { s.hport with stage := 5 }, decide_ := true }
  let s := { s with agenda := s.agenda.filter (fun d => d.ev != Instr.colWindowStart && d.ev != Instr.frameDeparture) }
  let g := s.global
  let s := s.at none (s.now + (2000 - g % 2000)) phWindow .colWindowStart
  let s := if s.livePorts.isEmpty then s else s.at none (s.now + (3 - g % 4)) 70 .frameDeparture
  s.readQueues

/-- The port at which time flits reach a package in the tree of R71 over all three dimensions, rooted at the time root (R57). -/
def State.timePort (s : State) : Option Nat :=
  s.recvPort 7 ((List.range 3).map (fun k => fld s.torus.rootAt.toNat (5 * k) 5)) s.own

/-- TIME_BASE_START: the root starts its counter at 0; every other package sets its own from a time flit of its receive port in the
tree of R71, and carries on the fraction of the latencies from the root (R57). -/
def execTimeBaseStart (s : State) : Out3 :=
  if s.torus.timed || !s.torus.training then .next s
  else if s.torus.root then .next (s.baseUp s.now)
  else
    match s.timePort.filter (fun p => (s.port p).rx.isSome) with
    | none => .next s
    | some p =>
      let x := s.port p
      let stamp := (x.rx.map (·.1)).getD 0
      .next ({ s with torus := { s.torus with frac := x.frac % 16 } }.baseUp ((x.rxAt : Int) - ((stamp + x.lat + x.frac / 16 : Nat) : Int)))

/-- TOR_TIMELO_READ: all 64 bits are latched (R52). -/
def execTorTimeloRead (s : State) : Out3 :=
  let g : W64 := .ofNat 64 s.global
  .next (if s.bar0Open then { s with torus := { s.torus with latch := g }, hostRead := leBytes 4 g.toNat }
    else { s with hostRead := leBytes 4 0 })

/-- TOR_HOP_WRITE (R52). -/
def execTorHopWrite (v : W32) (s : State) : Out3 :=
  .next (if s.bar0Writes then { s with torus := { s.torus with hop := min 4092 (roundUp (v.toNat % 4096) 4) } } else s)

/-! ## Frames (R48 to R50) -/

def timeFlit (lanes stamp : Nat) (tags : List Nat) : List Byte :=
  withSeal (leBytes 1 1 ++ leBytes 1 lanes ++ leBytes 6 stamp
    ++ (List.range 11).flatMap (fun j => leBytes 2 ((tags[j]?).getD 0xFFFF)))

/-- What a data slot carries: the flit of an accepted transfer, else a waiting notice if no transfer owns the slot (R161). -/
def State.slotFlit (s : State) (port d f j : Nat) : Option (Nat × List Byte) × State :=
  match firstSome (fun (e : Nat × Tile) => firstSome (fun c => s.flitOf e.1 port d f j c) e.2.link) s.tiles with
  | some x => (some x, s)
  | none =>
    if s.tiles.any (fun e => e.2.link.any (s.slotTaken e.1 port d f j)) then (none, s)
    else
      match s.torus.sendq.find? (fun q => q.2.1 == port && (decide (2 ^ 16 ≤ q.1) || (s.field q.1).placed)) with
      | none => (none, s)
      | some q => (some (0xFFFE, q.2.2), { s with torus := { s.torus with sendq := s.torus.sendq.erase q } })

/-- The frame of a port that begins at global cycle 4f. -/
def State.sendFrame (s : State) (f port : Nat) : State :=
  let x := s.port port
  if !x.up then s
  else
    let d := slotsOf x.lanes
    let (tags, flits, s) := (List.range (d - 1)).foldl
      (fun (acc : List Nat × List (Nat × List Byte) × State) k =>
        match acc.2.2.slotFlit port d f (k + 1) with
        | (some (tag, bs), s) => (acc.1 ++ [tag], acc.2.1 ++ [(k + 1, bs)], s)
        | (none, s) => (acc.1 ++ [0xFFFF], acc.2.1, s)) ([], [], s)
    let s := s.emit (.flit port (4 * f) 0 (timeFlit x.lanes (4 * f) tags))
    flits.foldl (fun s e => s.emit (.flit port (4 * f + 4 * e.1 / d) e.1 e.2)) s

/-- FRAME_DEPARTURE: every port that is up sends a frame; fired in the frame's last cycle, after the engines' samples. -/
def execFrameDeparture (s : State) : Out3 :=
  if !s.torus.timed then .next s
  else
    let s := (List.range 6).foldl (fun s p => s.sendFrame (s.global / 4) p) s
    .next (s.at none (s.now + 4) 70 .frameDeparture)

/-! ## Received flits (R51, R58, R61, R65) -/

/-- A flit is lost: it is counted, and a port that loses more than 64 within 1 ms retrains (R51, R55). -/
def State.flitLost (s : State) (p : Nat) : State :=
  let s := s.bump (0x058 + p) 1
  let ls := s.now :: (s.port p).losses.filter (fun c => decide (s.now < c + 2000000))
  let s := s.modPort p (fun x => { x with losses := ls })
  if 64 < ls.length then s.at none s.now phDevice (.portRetrain (.ofNat 3 p)) else s

/-- The full global cycle behind a 48-bit stamp. -/
def State.stampCycle (s : State) (st : Nat) : Nat :=
  let g := s.global
  let x := g / 2 ^ 48 * 2 ^ 48 + st
  if g + 2 ^ 47 < x then x - 2 ^ 48 else if x + 2 ^ 47 < g then x + 2 ^ 48 else x

def signedLow48 (x : Int) : Int := (x + 2 ^ 47) % 2 ^ 48 - 2 ^ 47

/-- 64 consecutive deviations: TBERR and health, MACHINE timebase in the owner's contexts, and a retraining (R58). -/
def State.timeBaseError (s : State) (p : Nat) : State :=
  let fs := (s.fields.filter (fun e => e.2.placed && bitAt e.2.ports p)).map (·.1)
  let s := fs.foldl (fun s f => (s.machineField f (machine 3 0 0)).machineCheck 0x0C 0xFFFF f 0) s.setTberr
  s.at none s.now phDevice (.portRetrain (.ofNat 3 p))

/-- TIME_FLIT_RECEIVE (R51, R57, R58, R61).  A lost time flit is counted; one whose SEAL fails is not lost itself.  Both lose the data
flits of their frame. -/
def execTimeFlitReceive (port : BitVec 3) (flit : Option (List Byte)) (corrected : Nat) (s : State) : Out3 :=
  let p := port.toNat
  let s := s.bump (0x050 + p) corrected
  let x := s.port p
  if !x.up then .next s
  else
    match flit with
    | none => .next ((s.modPort p (fun x => { x with rx := none })).flitLost p)
    | some bs =>
      if !sealed bs then .next (s.modPort p (fun x => { x with rx := none }))
      else
        let stamp := numAt bs 2 6
        let tags := (List.range 11).map (fun j => numAt bs (8 + 2 * j) 2)
        let s := s.modPort p (fun x => { x with rx := some (stamp, tags), rxAt := s.now })
        if !s.torus.timed then
          .next (if s.torus.training && s.allTrained && !s.torus.root then s.at none s.now phDevice .timeBaseStart else s)
        else
          let off := signedLow48 ((s.global : Int) - ((stamp + x.lat : Nat) : Int))
          let run := if 2 < off.natAbs then x.devRun + 1 else 0
          let s := s.modPort p (fun x => { x with devRun := if 64 ≤ run then 0 else run })
          .next (if 64 ≤ run then s.timeBaseError p else s)

/-- The notice event of a flit by its NKIND; reserved kinds and broken seals are discarded (R161). -/
def noticeOf (port : BitVec 3) (bs : List Byte) : Option Instr :=
  if !sealed bs then none
  else
    match numAt bs 0 1 with
    | 1 => some (.noticePlaced port bs)
    | 2 => some (.noticeFreeze port bs)
    | 3 => some (.noticeResume port bs)
    | 4 => some (.noticeArrived port bs)
    | 5 => some (.noticeDone port bs)
    | _ => none

/-- Whether a command to come may expect a flit of a port: it arrives in this cycle, or, of a field that owns the port, in its clock
not before the present cycle (R65). -/
def State.flitAhead (s : State) (p : Nat) (x : Flit) : Bool :=
  x.at_ == s.now || s.fields.any (fun e =>
    bitAt e.2.ports p && (e.2.depTcyc ((x.frame : Int) + s.gzero)).any (fun d => decide (s.tcycOf e.1 ≤ d + 3 + x.lat)))

/-- A data flit comes to a port: to the commands that expect it, and into the port's buffer. -/
def State.takeFlit (s : State) (p : Nat) (x : Flit) : State :=
  let give (e : Nat × Tile) : Nat × Tile := (e.1, { e.2 with link := e.2.link.map (s.offer p x e.1) })
  { s with tiles := s.tiles.map give }.modPort p (fun y => { y with buf := y.buf.filter (s.flitAhead p) ++ [x] })

/-- DATA_FLIT_RECEIVE: a flit is lost (R51), is a notice (R161), or goes to the command that expects it (R61).  `place.pos` says which
flit of its transfer it is (log entry 2). -/
def execDataFlitReceive (port : BitVec 3) (place : FlitPlace) (flit : Option (List Byte)) (s : State) : Out3 :=
  let p := port.toNat
  let x := s.port p
  if !x.up then .next s
  else
    match flit, x.rx with
    | some bs, some (stamp, tags) =>
      let tag := (tags[place.slot - 1]?).getD 0xFFFF
      if tag = 0xFFFE then
        .next (match noticeOf port bs with
          | some ev => s.at none s.now phDevice ev
          | none => s)
      else .next (s.takeFlit p ⟨s.stampCycle stamp, place.slot, slotsOf x.lanes, x.lat, tag, place.pos, bs, s.now⟩)
    | _, _ => .next (s.flitLost p)

end Sys2Proof.Machine
end

