-- ==== Sys2Proof/Machine/Freeze.lean ====
section
/-! DEFINITION. Notices (R161 to R164); freeze requests and the freeze itself (R153, R154, R329, R333); resumption (R156,
R159, R330). -/

namespace Sys2Proof.Machine

open Sys2Proof

def Field.spanning (f : Field) : Bool := decide (2 ≤ f.span)

/-- Dies a field has tiles on. -/
def Field.dies (f : Field) : List Nat := distinct (f.tiles.map dieOfTile)

/-- Λ as far as it is known (R162). -/
def Field.lambda (f : Field) : Nat := f.lam.getD 64

/-- A part of a span that does not know Λ yet: nothing of it can be fixed that takes a lead (R153, R162). -/
def Field.noLambda (f : Field) : Bool := f.spanning && f.lam.isNone

/-- The lead of R153. -/
def Field.lead (f : Field) : Nat := if f.spanning then f.lambda else if f.dies.length ≤ 1 then 64 else 128

/-! ## Notices (R161) -/

def noticeBytes (kind field origin serial cycle dom phase lmax : Nat) : List Byte :=
  withSeal (leBytes 1 kind ++ leBytes 1 0 ++ leBytes 2 field ++ leBytes 2 origin ++ leBytes 2 serial ++ leBytes 8 cycle
    ++ leBytes 2 dom ++ leBytes 2 phase ++ leBytes 2 lmax)

structure Notice where
  field  : Nat
  origin : Nat
  serial : Nat
  cycle  : Nat
  dom    : Nat
  phase  : Nat
  lmax   : Nat

def noticeAt (b : List Byte) : Notice :=
  ⟨numAt b 2 2, numAt b 4 2, numAt b 6 2, numAt b 8 8, numAt b 16 2 % 16, numAt b 18 2, numAt b 20 2⟩

/-- Flood a notice on the ports of its field but one. -/
def State.flood (s : State) (f : Nat) (except : Option Nat) (bs : List Byte) : State :=
  let ps := (List.range 6).filter (fun p => bitAt (s.field f).ports p && except != some p)
  { s with torus := { s.torus with sendq := s.torus.sendq ++ ps.map (fun p => (f, p, bs)) } }

/-- Send a notice of this package; a field that does not span has no one to tell. -/
def State.sendNotice (s : State) (f kind cycle dom phase lmax : Nat) : State :=
  if !(s.field f).spanning then s
  else
    let n := s.serial.toNat
    { s with serial := s.serial + 1, seen := (s.pkgNum, n) :: s.seen }.flood f none
      (noticeBytes kind f s.pkgNum n cycle dom phase lmax)

/-- A notice arrives: one already seen is discarded; a new one is flooded on and acted upon. -/
def State.takeNotice (s : State) (port : BitVec 3) (bs : List Byte) (act : Notice → State → State) : State :=
  let n := noticeAt bs
  if !sealed bs || s.seen.contains (n.origin, n.serial) then s
  else
    let s := { s with seen := (n.origin, n.serial) :: s.seen }.flood n.field (some port.toNat) bs
    if s.live n.field && (s.field n.field).spanning then act n s else s

/-- Fix F of a field that runs, at a cycle of tcyc; of one that freezes, when that is earlier than its own. -/
def State.freezeAt (s : State) (f c : Nat) : State :=
  let x := s.field f
  if x.ticking && (x.state == .running || (x.state == .freezing && x.freezeF.all (fun old => decide (c < old)))) then
    (s.modField f (fun x => { x with state := .freezing, freezeF := some c })).at (some f) c phFreeze (.freeze (.ofNat 16 f))
  else s

/-- A package that learns F, G or a release too late (R164, R169): MACHINE span in every context, and a freeze at the
first multiple of 4 it can. -/
def State.spanLate (s : State) (f : Nat) : State :=
  (s.machineField f (machine 4 0 0)).freezeAt f (roundUp (s.tcycOf f + 1) 4)

/-! ## A freeze request (R153) -/

/-- Fix the freeze cycle of a running field, or join the one that is fixed. -/
def State.requestFreeze (s : State) (f : Nat) (evict : Bool) : State :=
  let x := s.field f
  if x.state = .freezing then s.modField f (fun x => { x with toEvict := x.toEvict || evict })
  else if x.state = .running then
    let c := roundUp (s.tcycOf f + x.lead) 4
    let s := s.modField f (fun x => { x with state := .freezing, freezeF := some c, toEvict := evict })
    let s := s.at (some f) c phFreeze (.freeze (.ofNat 16 f))
    s.sendNotice f 2 (s.global + (c - s.tcycOf f)) 0 0 0
  else s

/-! ## The freeze (R154, R329, R331, R333) -/

/-- The earliest stream of a context that the freeze interrupts (R333). -/
def Tile.interrupted (t : Tile) (h f : Nat) : Option ECmd :=
  (t.arr.filter (fun c => c.isStream && c.hw == h && !c.dclk && !c.stopped && decide (c.t < f) && decide (c.prog < c.desc.m))).foldl
    (fun (best : Option ECmd) c => match best with
      | none => some c
      | some b => if c.t < b.t then some c else some b) none

/-- A PASS answer of a field's own clock, which no descriptor can hold, lands as far from the resume as it was from the freeze; what else
stays with the tile goes by device cycles. -/
def State.movedResult (s : State) (t h : Nat) (f : Nat → Nat) (r : Result) : Result :=
  if s.agenda.any (fun d => d.clk.isSome && d.ev == .passAnswer (.ofNat 8 t) (.ofNat 2 h) r.id) then { r with land := f r.land } else r

/-- Freeze one context: results in flight go to the catch bank, in record 1 when record 0 is open. -/
def State.freezeCtx (s : State) (f t h : Nat) : State :=
  let c := s.ctx t h
  let tc := s.tcycOf f
  let run := (s.tile t).running.rd (if (s.field f).member = 0 then 0 else 2) (s.field f).member == h
  let fl := b2n c.litPaid + 2 * b2n run + 8 * b2n c.sys
  let c := c.catchRecord (s.tile t) s.now tc c.pc fl c.tinfo0.toNat c.rec0
  let c := match (s.tile t).interrupted h tc with
    | some e => { c with rstpt := rstptOf e e.prog true }
    | none => c
  s.setCtx t h { c with
    inflight := c.inflight.map (s.movedResult t h (fun n => n - s.now)),
    readyAt := c.readyAt - s.now, yieldAt := if c.yieldAt = some s.now then some 0 else none }

/-- FREEZE: at tcyc F nothing more issues, results in flight are caught, and tcyc stops. -/
def execFreeze (field : Half) (s : State) : Out3 :=
  let f := field.toNat
  let x := s.field f
  if !(s.live f && x.state == .freezing && x.ticking && (x.freezeF.any (fun c => decide (c ≤ s.tcycOf f)))) then .next s
  else
    let tc := s.tcycOf f
    let s := x.places.foldl (fun s p => s.freezeCtx f p.1 p.2) s
    let s := s.modField f (fun x => { x with
      ticking := false, tcStop := tc, tcPrev := x.tcZero, runs := (x.tcZero, x.tcStop, tc) :: x.runs, quietAt := s.global + 576, freezeF := some tc })
    .next (s.at none (s.now + 576) phFreeze (.fieldQuiet field))

/-! ## Resumption (R156, R330) -/

/-- A resume request wakes the field's windows (R336). -/
def State.wake (s : State) (f : Nat) : State :=
  (s.field f).places.foldl (fun s p => s.modCtx p.1 p.2 (fun c => { c with drowsy := false })) s

/-- Fix G for a field that is parked: a multiple of 4, a lead after the request, and not before its partner is quiet.  After SHUTDOWN
nothing resumes (R113), and a part of a span whose Λ is not known yet waits for it (R153). -/
def State.fixResume (s : State) (f req : Nat) : State :=
  let x := s.field f
  if s.hport.shutdown || x.noLambda then (s.modField f (fun x => { x with resumeReq := some req })).wake f else
  let quiet := match s.partner f with
    | some p => if (s.field p).placed && !(s.field p).ticking then (s.field p).quietAt else 0
    | none => 0
  let g := roundUp (max (max (req + x.lead) quiet) s.global) 4
  let s := (s.modField f (fun x => { x with resumeG := some g, resumeReq := none })).wake f
  (s.at none ((g : Int) + s.gzero).toNat phStart (.fieldResume (.ofNat 16 f))).sendNotice f 3 g 0 0 0

/-- Request that a field runs (R142, R156, R159): a running partner is frozen first; a field in transition waits. -/
def State.requestResume (s : State) (f : Nat) : State :=
  let x := s.field f
  if x.state = .parked && x.resumeG.isNone then
    match s.partner f with
    | some p =>
      let y := s.field p
      let ask (s : State) : State := (s.modField f (fun x => { x with resumeReq := some (x.resumeReq.getD s.global) })).wake f
      if y.state = .running || y.state = .freezing then (ask s).requestFreeze p false
      else if y.state = .starting || (y.state == .loading && decide (y.placedAt < x.placedAt)) || y.resumeG.isSome then ask s
      else s.fixResume f s.global
    | none => s.fixResume f s.global
  else if x.state = .running || x.state = .parked then s
  else s.modField f (fun x => { x with resumeReq := some (x.resumeReq.getD s.global) })

/-- A field that begins to run gives way at once to a partner whose resumption was asked for (R159). -/
def State.giveWay (s : State) (f : Nat) : State :=
  match s.partner f with
  | some p => if (s.field p).state == .parked && (s.field p).resumeReq.isSome then s.requestFreeze f false else s
  | none => s

/-- Resume one context: record 1, or record 0 when the freeze wrote it, is replayed with g at this cycle (R156); FLAGS.RUN makes it the
running sibling again (R330). -/
def State.resumeCtx (s : State) (t h : Nat) (caught : Bool) : State :=
  let c := s.ctx t h
  let back := caught && (c.rec1 || c.rec0)
  let s := s.modCtx t h (fun c => { c with inflight := c.inflight.map (s.movedResult t h (· + s.now)) })
  let s := if back then s.returnFrom t h s.now c.rec1 else s
  let s := if back && bitAt (c.catchMem.num (if c.rec1 then 0x213 else 0x13) 1) 1 then
      s.modTile t (fun x => { x with running := x.running.insert (s.field c.fieldNum).member h })
    else s
  s.modCtx t h (fun c => { c with readyAt := s.now + c.readyAt, yieldAt := c.yieldAt.map (fun _ => s.now) })

/-- FIELD_RESUME: at G the field's tcyc reads F again, the first bundles may issue, and catch replay begins.  A field that resumes
under a trip, or after SHUTDOWN, freezes again at once (R19, R113). -/
def execFieldResume (field : Half) (s : State) : Out3 :=
  let f := field.toNat
  let x := s.field f
  if !(s.live f && x.state == .parked && x.resumeG == some s.global) || s.hport.offok then .next s
  else
    let s := s.modField f (fun x => { x with
      state := .running, ticking := true, tcZero := s.now - x.tcStop, freezeF := none, resumeG := none, resumeReq := none,
      toEvict := false, tripped := s.pkg.thtrip, resumers := [] })
    let s := x.places.foldl (fun s p => s.resumeCtx p.1 p.2 x.freezeF.isSome) s
    let s := s.packetsDone x.resumers
    .next ((if s.pkg.thtrip || s.hport.shutdown then s.requestFreeze f false else s).giveWay f)

/-- NOTICE_FREEZE (R164): every package freezes at the same F, the earliest where packages have fixed it before they heard of each other
(log entry 117).  One that this package learns too late is MACHINE span. -/
def execNoticeFreeze (port : BitVec 3) (flit : List Byte) (s : State) : Out3 :=
  .next (s.takeNotice port flit (fun n s =>
    let f := n.field
    let x := s.field f
    let own := if x.ticking then x.freezeF.map (fun c => s.global + (c - s.tcycOf f)) else some (x.quietAt - 576)
    if own.any (fun g => decide (g ≤ n.cycle)) then s
    else if !x.ticking then s.machineField f (machine 4 0 0)
    else if n.cycle < s.global + 64 then s.spanLate f
    else s.freezeAt f (s.tcycOf f + (n.cycle - s.global))))

/-- NOTICE_RESUME (R164): every package resumes at the same G, the earliest as with F. -/
def execNoticeResume (port : BitVec 3) (flit : List Byte) (s : State) : Out3 :=
  .next (s.takeNotice port flit (fun n s =>
    let f := n.field
    let x := s.field f
    if x.ticking || x.resumeG.any (fun g => decide (g ≤ n.cycle)) then s
    else if n.cycle < s.global + 64 then s.machineField f (machine 4 0 0)
    else
      ((s.modField f (fun x => { x with resumeG := some n.cycle, resumeReq := none })).wake f).at none
        ((n.cycle : Int) + s.gzero).toNat phStart (.fieldResume (.ofNat 16 f))))

/-- WINDOW_DROWSY (R336): a window of a field parked for 1 ms keeps its content at reduced supply. -/
def execWindowDrowsy (tile : BitVec 8) (hw : BitVec 2) (s : State) : Out3 :=
  let c := s.ctx tile.toNat hw.toNat
  let x := s.field c.fieldNum
  .next (if c.field.isSome && x.state == .parked && x.resumeG.isNone && x.resumeReq.isNone && decide (x.parkedAt + 2000000 ≤ s.now) then
    s.modCtx tile.toNat hw.toNat (fun c => { c with drowsy := true }) else s)

/-! ## YIELD (R400, R159) -/

def State.yieldNext (s : State) : State := s.modCC (fun c => { c with yieldAt := some (s.now + 1) })

def execYield (g : Guard) (s : State) : Out3 := s.slot g (s.ctlTrap g) State.yieldNext

/-- The partner is parked, so that YIELD field may switch to it. -/
def State.partnerParked (s : State) : Option Nat :=
  match s.partner s.cf with
  | some p => if s.live p && (s.field p).state == .parked then some p else none
  | none => none

def execYieldField (g : Guard) (s : State) : Out3 :=
  s.slot g (s.ctlTrap g) (fun s =>
    match s.partnerParked with
    | none => s.yieldNext
    | some p =>
      let s := (s.modField p (fun x => { x with resumeReq := some s.global })).wake p
      s.requestFreeze s.cf false)

end Sys2Proof.Machine
end

