-- ==== Sys2Proof/Machine/Domains.lean ====
section
/-! DEFINITION. The phase units (R165 to R169, R276, R306, R307): PHASE and DONE (R388, R401), arrivals, boundaries and
releases. -/

namespace Sys2Proof.Machine

open Sys2Proof

/-! ## PHASE and DONE -/

def chkPhase (g : Guard) (n : BitVec 3) (s : State) : Option Trap :=
  if s.cc.guard g && (s.curDomain n.toNat).isNone then some (illegal5 slS) else none

def execPhase (g : Guard) (n : BitVec 3) (s : State) : Out3 :=
  s.slot g (chkPhase g n s) (fun s =>
    match s.curDomain n.toNat with
    | none => s
    | some d => s.modCC (fun c => { c with phase := some ⟨d, false, c.sys⟩ }))

def execDone (g : Guard) (s : State) : Out3 := s.slot g none (fun s => s.modCC (fun c => { c with done := true }))

/-! ## Arrival (R276, R306) -/

/-- The places of a field's contexts, as `Call.rel`. -/
def Field.rels (f : Field) : List Nat :=
  (List.range (f.w * f.h)).flatMap (fun p => (List.range f.ctxs).map (fun n => 4 * p + n))

/-- A core-path global access: what a context's arrival waits for. -/
def Cmd.isCore (c : Cmd) : Bool :=
  c.isLoad || c.isStore || c.isAtomic || (match c.ins with
    | .hintFill .. => true
    | _ => false)

def State.coreBusy (s : State) (f rel : Nat) : Bool := s.cmds.any (fun c => c.field == f && c.rel == rel && c.isCore)

/-- The maps of a context whose scope domain is d, by number. -/
def State.mapsOf (s : State) (f rel : Nat) (c : Ctx) (d : DomKey) : List Nat :=
  (List.range 4).filter (fun k => (c.map k).en && s.domainKey f rel (c.map k).level (c.map k).id == some d)

/-- A context that waits at PHASE arrives once its core-path accesses are over; the dirty lines of its maps of the domain are
written back first. -/
def State.tryArrive (s : State) (f rel : Nat) : State :=
  let (t, h) := (s.field f).locate rel
  let c := s.ctx t h
  match c.phase with
  | none => s
  | some w =>
    if w.arrived || s.coreBusy f rel then s
    else
      let ks := s.mapsOf f rel c w.dom
      let dirty := c.stash.filter (fun l => ks.contains l.map && !l.dirty.isEmpty)
      if dirty.isEmpty then s.setCtx t h { c with phase := some { w with arrived := true } }
      else dirty.foldl (fun s l => s.writeBack t h (c.map l.map) l) s

/-! ## Boundaries (R167, R168) -/

/-- The domains that a context's slots name, as membership sees them. -/
def State.domainsOf (s : State) (f rel : Nat) (c : Ctx) : List DomKey :=
  (List.range 8).filterMap (s.slotDomain f rel c)

/-- A context counts as arrived at a domain: it has arrived there, or from the cycle after its DONE, or when it is halted. -/
def Ctx.counts (c : Ctx) (tcyc : Nat) (d : DomKey) : Bool :=
  c.halted || (c.done && c.lastIssue != some tcyc) || c.phase.any (fun w => w.arrived && w.dom == d)

/-- The members of a domain, as places. -/
def State.members (s : State) (f : Nat) (d : DomKey) : List Nat :=
  (s.field f).rels.filter (fun r => (s.domainsOf f r (s.place f r).1).contains d)

/-- Release delays Δ (R165). -/
def levelDelay (level : Nat) : Nat :=
  match level with
  | 0 => 1
  | 1 => 2
  | 2 => 8
  | 3 => 16
  | _ => 48

/-- The tcyc of a global cycle g: as the field runs, or as it ran before the freeze it is in. -/
def State.tcycAt (s : State) (f g : Nat) : Nat :=
  let x := s.field f
  ((g : Int) + s.gzero - ((if x.ticking then x.tcZero else x.tcPrev : Nat) : Int)).toNat

/-- A span boundary is due when every package's arrived notice for the phase is held (R169). -/
def State.spanBoundary (s : State) (d : DomKey) : State :=
  let x := s.field d.field
  let u := s.domain d
  let ns := u.remote.filter (fun n => n.2.1 == u.phase.toNat)
  if u.releasing || (distinct (ns.map (·.1))).length < x.span then s
  else
    let g := maxNat (ns.map (·.2.2)) + x.lambda
    let s := if x.ticking && decide (g < s.global + 64) then s.spanLate d.field else s
    (s.setDomain d { u with releasing := true }).at (some d.field) (max (s.tcycAt d.field g) (s.tcycOf d.field)) phBound
      (.phaseRelease d)

/-- This package's part of a span domain has arrived, as of global cycle a: the others are told, now and in each later window (R169). -/
def State.spanArrived (s : State) (d : DomKey) (a : Nat) : State :=
  let f := d.field
  let u := s.domain d
  let ph := u.phase.toNat
  let s := s.setDomain d { u with remote := (s.pkgNum, ph, a) :: u.remote }
  let s := (s.sendNotice f 4 a d.id ph 0).at (some f) ((s.tcycOf f / 4096 + 1) * 4096) phDevice (.arrivedNoticeResend d)
  s.spanBoundary d

/-- A package without a member of a span domain has nothing to wait for: once it hears of the phase it says that it has arrived, as of
then (log entry 118). -/
def State.spanAnswer (s : State) (d : DomKey) : State :=
  let u := s.domain d
  let now := u.remote.filter (fun n => n.2.1 == u.phase.toNat)
  if u.releasing || now.isEmpty || now.any (fun n => n.1 == s.pkgNum) || !(s.members d.field d).isEmpty then s
  else s.spanArrived d s.global

/-- The boundary of a domain occurs on this package: the release follows Δ later, or once the span agrees. -/
def State.boundary (s : State) (d : DomKey) (members : List Nat) : State :=
  let f := d.field
  let x := s.field f
  let a := s.global
  let u := { s.domain d with arrivals := members.map (fun r => (r, a)) }
  if d.level = 5 && x.spanning then (s.setDomain d u).spanArrived d a
  else
    (s.setDomain d { u with releasing := true }).at (some f) (s.tcycOf f + levelDelay d.level) phBound (.phaseRelease d)

/-- Every context of a running field that can arrive does, and every domain whose members have all arrived has its
boundary. -/
def State.fieldArrivals (s : State) (f : Nat) : State :=
  let rs := (s.field f).rels
  let s := rs.foldl (fun s r => s.tryArrive f r) s
  let tc := s.tcycOf f
  let ds := (rs.flatMap (fun r => s.domainsOf f r (s.place f r).1)).foldl
    (fun acc d => if acc.contains d then acc else d :: acc) []
  ds.foldl (fun s d =>
    let ms := s.members f d
    if (s.domain d).arrivals.isEmpty && !ms.isEmpty && ms.all (fun r => (s.place f r).1.counts tc d) then s.boundary d ms
    else s) s

/-- A field of which every context has issued DONE or halted completes in the next cycle (R140, R401); one that spans tells the
others first. -/
def State.fieldDone (s : State) (f : Nat) : State :=
  let x := s.field f
  if !(x.rels.all (fun r => let c := (s.place f r).1; c.done || c.halted)) then s
  else if !x.spanning then s.at none (s.now + 1) phDevice (.fieldComplete (.ofNat 16 f))
  else
    let s := if x.dones.contains s.pkgNum then s
      else (s.modField f (fun x => { x with dones := s.pkgNum :: x.dones })).sendNotice f 5 0 0 0 0
    if x.span ≤ (s.field f).dones.length then s.at none (s.now + 1) phDevice (.fieldComplete (.ofNat 16 f)) else s

/-- The end of a cycle: arrivals, boundaries and completions of every running field. -/
def State.arrivalScan (s : State) : State :=
  (s.fields.map (·.1)).foldl (fun s f =>
    if (s.field f).state == .running && (s.field f).ticking then (s.fieldArrivals f).fieldDone f
    else if (s.field f).ticking then s.fieldArrivals f else s) s

/-! ## Release (R167, R168, R276, R307) -/

/-- What a release does to one context of the domain's container.  Every line of its maps of the domain is emptied; a release is no
point of write-back (R276, R277). -/
def State.releaseCtx (s : State) (d : DomKey) (released : List Nat) (rel : Nat) : State :=
  let f := d.field
  let (t, h) := (s.field f).locate rel
  let c := s.ctx t h
  let ks := s.mapsOf f rel c d
  let s := s.modCtx t h (·.empty (fun l => ks.contains l.map))
  let gone := (c.done || c.halted) && released.contains rel
  s.modCtx t h (fun c =>
    let here := (List.range 8).filter (fun n => s.slotDomain f rel c n == some d)
    let c := { c with dEff := here.foldl (fun e n => e.wr (slotReset n) n (if gone then 7 else c.dreg n)) c.dEff }
    if released.contains rel && c.phase.any (fun w => w.arrived && w.dom == d) then
      { c with phase := none, readyAt := max c.readyAt s.now }
    else c)

/-- PHASE_RELEASE: the pending versions of the phase commit, slot writes take effect, the members go on, and the phase number
rises. -/
def execPhaseRelease (d : DomKey) (s : State) : Out3 :=
  let u := s.domain d
  if !u.releasing || !s.live d.field then .next s
  else
    let s := s.commitWhere (fun b => b.dom == d && b.phase == u.phase)
    let s := { s with away := s.away.filter (fun a => !(a.1 == d && a.2.1 == u.phase.toNat)) }
    let s := (s.field d.field).rels.foldl (fun s r =>
      if (s.field d.field).container r d.level == d.cont then s.releaseCtx d (u.arrivals.map (·.1)) r else s) s
    .next ((s.setDomain d ⟨u.phase + 1, [], u.remote.filter (fun n => n.2.1 != u.phase.toNat), false⟩).spanAnswer d)

/-! ## Span notices (R164, R169) -/

def spanDomain (f id : Nat) : DomKey := ⟨f, 5, 0, id⟩

/-- NOTICE_ARRIVED: kept once for its origin and phase. -/
def execNoticeArrived (port : BitVec 3) (flit : List Byte) (s : State) : Out3 :=
  .next (s.takeNotice port flit (fun n s =>
    let d := spanDomain n.field n.dom
    let u := s.domain d
    if u.remote.any (fun r => r.1 == n.origin && r.2.1 == n.phase) || n.phase != u.phase.toNat && n.phase != (u.phase + 1).toNat then s
    else ((s.setDomain d { u with remote := (n.origin, n.phase, n.cycle) :: u.remote }).spanAnswer d).spanBoundary d))

/-- ARRIVED_NOTICE_RESEND: in each later window until the boundary. -/
def execArrivedNoticeResend (d : DomKey) (s : State) : Out3 :=
  let u := s.domain d
  match u.remote.find? (fun n => n.1 == s.pkgNum && n.2.1 == u.phase.toNat) with
  | none => .next s
  | some (_, _, a) =>
    if u.releasing || !s.live d.field then .next s
    else
      .next ((s.sendNotice d.field 4 a d.id u.phase.toNat 0).at (some d.field) (s.tcycOf d.field + 4096) phDevice
        (.arrivedNoticeResend d))

/-- NOTICE_DONE (R140). -/
def execNoticeDone (port : BitVec 3) (flit : List Byte) (s : State) : Out3 :=
  .next (s.takeNotice port flit (fun n s =>
    s.modField n.field (fun x => { x with dones := if x.dones.contains n.origin then x.dones else n.origin :: x.dones })))

end Sys2Proof.Machine
end

