-- ==== Sys2Proof/Machine/BankCall.lean ====
section
/-! DEFINITION. Bank-unit calls, streams and sessions (R95 to R99, R477), what a call's turn decides (R97, R101, R102), and the
DRAM as the units reach it (R75, R77, R83). -/

namespace Sys2Proof.Machine

open Sys2Proof

/-! ## BCALL (R477) -/

/-- The fields of sC. -/
structure CallWord where
  pch    : Nat
  entry  : Nat
  stream : Nat
  seq    : Nat
  rest   : Nat

def callWord (v : W64) : CallWord :=
  let n := v.toNat
  ⟨fld n 0 9, fld n 9 8, fld n 17 6, fld n 23 16, fld n 39 25⟩

/-- The Col's check of a class-B call at issue (R30, R31). -/
def State.callPower (s : State) (entry : Nat) : Option Trap :=
  let w := windowOf s.global
  if entry < 2 then none
  else if s.col.ovrun && s.col.overran.contains s.cf then some (power slM 3 w 1)
  else if s.col.grants.any (·.serves s.now s.cf 1 w) then none
  else some (power slM 1 w 1)

def chkBcall (i : Instr) (g : Guard) (c : BitVec 5) (s : State) : Option Trap :=
  let w := callWord (s.cc.sreg c.toNat)
  s.achk g (Instr.rangeTrap i slM) (if w.rest != 0 then some (illegal5 slM) else none) none (s.callPower w.entry)

/-- The call is sent, or, to a withdrawn pseudo-channel, MACHINE 0x05 is reported instead (R37). -/
def State.sendCall (s : State) (w : CallWord) (args : List W64) (e : Nat) : State :=
  if (s.seqr w.pch).withdrawn then
    s.modCC (fun c => c.report s.now s.nextId (some s.cur.pc) ⟨11, 5, slM, (args.headD 0).toNat, 0⟩)
  else
    let c : Call :=
      { id := s.nextId, pch := w.pch, field := s.cf, rel := s.relOf s.cur.tile s.cur.hw, sys := s.cc.sys, ev := e,
        entry := w.entry, stream := w.stream, seq := w.seq, args := args }
    { s with calls := s.calls ++ [c], nextId := s.nextId + 1 }.later c.id 1 (.bcallArrive c.id)

def execBcall (g : Guard) (c a : BitVec 5) (e : BitVec 4) (s : State) : Out3 :=
  s.slot g (chkBcall (.bcall g c a e) g c s) (fun s =>
    s.sendCall (callWord (s.cc.sreg c.toNat)) ((List.range 6).map (fun k => s.cc.sreg (a.toNat + k))) e.toNat)

/-! ## Streams (R95, R96) -/

def stAborted : Nat := 1
def stNoEntry : Nat := 2
def stArgs : Nat := 4
def stPage : Nat := 8
def stSeq : Nat := 16
def stFull : Nat := 32
def stNoSess : Nat := 64
def stNanCall : Nat := 128
def stEcc : Nat := 256
def stIlluw : Nat := 512

/-- The expected sequence number of a stream. -/
def Seqr.expected (q : Seqr) (f st : Nat) : Nat := ((q.expect.find? (fun e => e.1 == f && e.2.1 == st)).map (·.2.2)).getD 0

def Seqr.advance (q : Seqr) (f st : Nat) : Seqr :=
  { q with expect := (f, st, (q.expected f st + 1) % 65536) :: q.expect.filter (fun e => !(e.1 == f && e.2.1 == st)) }

/-- A call that its stream's expected number names. -/
def Seqr.due (q : Seqr) (c : Call) : Bool := c.seq == q.expected c.field c.stream

/-- Another stream holds a session. -/
def Seqr.othersSession (q : Seqr) (c : Call) : Bool := q.session.any (fun x => !(x.field == c.field && x.stream == c.stream))

def Seqr.ownSession (q : Seqr) (c : Call) : Bool := q.session.any (fun x => x.field == c.field && x.stream == c.stream)

/-- An FWLOAD of target 1. -/
def loadsUnits (p : Pkt) : Bool := pktType p == 0x0A && numAt p.bytes 4 1 == 1

/-- Firmware is loading every control store, or about to: calls wait (R133). -/
def State.loadingUnits (s : State) : Bool :=
  s.hport.mbBusy && (s.hport.mbNext.any (fun m => m.1 == 0 && loadsUnits m.2.2) || s.hport.loading.any loadsUnits)

/-- A held call whose turn may come now. -/
def State.callReady (s : State) (q : Seqr) (c : Call) : Bool :=
  q.due c && q.running.isNone && !s.loadingUnits && !(c.entry == 0 && q.othersSession c && !q.withdrawn
    && !q.aborted.contains (c.field, c.stream))

/-- Let every call of a pseudo-channel that may start do so, a free time later each. -/
def State.offerCalls (s : State) (pch : Nat) : State :=
  let q := s.seqr pch
  (q.held.filter (s.callReady q)).foldl (fun s c => s.later c.id 0 (.callStart (.ofNat 9 pch) c.id)) s

/-- A call ends: one event on its counter, and its status into bkstat, wherever its context is (R97). -/
def State.endCall (s : State) (c : Call) (status : Nat) : State :=
  s.modRel c.field c.rel (fun x => { x.count c.ev 1 with bkstat := x.bkstat ||| .ofNat 32 status })

/-- With no call of its stream running or to run next, a session's idle time begins, and with it the wait of R99: a call that came
early, and whose turn only a further call can bring, does not hold it up. -/
def State.idleSession (s : State) (pch f st : Nat) : State :=
  let q := s.seqr pch
  let busy := q.held.any (fun x => x.field == f && x.stream == st && q.due x)
    || q.running.any (fun r => r.call.field == f && r.call.stream == st)
  if busy || !q.session.any (fun x => x.field == f && x.stream == st) then s
  else
    let s := s.modSeqr pch (fun q => { q with session := q.session.map (fun x => { x with lastEnd := some s.now }) })
    { s with agenda := ⟨none, s.now + 200000, phDevice, s.nextId, .sessionTimeout, pch⟩ :: s.agenda }

/-- BCALL_ARRIVE (R96): the call is held for its turn, or ends as a duplicate or for want of room.  A second call with the number of one
that is held is a duplicate too, the model's choice (log entry 60). -/
def execBcallArrive (id : Nat) (s : State) : Out3 :=
  match s.calls.find? (fun c => c.id == id) with
  | none => .next s
  | some c =>
    let s := { s with calls := s.calls.filter (fun x => x.id != id) }
    let s := s.modSeqr c.pch (fun q => { q with
      session := q.session.map (fun x =>
        if x.field == c.field && x.stream == c.stream && x.lastEnd.isSome then { x with lastEnd := none } else x) })
    let q := s.seqr c.pch
    let d := (c.seq + 65536 - q.expected c.field c.stream) % 65536
    let twin := q.held.any (fun x => x.field == c.field && x.stream == c.stream && x.seq == c.seq)
    let restart (s : State) : State := s.idleSession c.pch c.field c.stream
    .next (if 32768 ≤ d || twin then restart (s.endCall c stSeq)
      else if d ≠ 0 && 16 ≤ (q.held.filter (fun x => !q.due x)).length then restart (s.endCall c stFull)
      else restart ((s.modSeqr c.pch (fun q => { q with held := q.held ++ [c] })).offerCalls c.pch))

/-! ## The DRAM of a pseudo-channel (R74, R75) -/

def dieOfPch (pch : Nat) : Nat := pch / 128

/-- The physical byte, on its die, of byte o of column `col` of a row of a bank. -/
def bankByte (pch bank row col o : Nat) : Nat :=
  48 * GiB * (pch / 64 % 2) + (64 * (row / 128) + pch % 64) * 2 ^ 21 + 512 * (row % 128 * 32 + col) + 32 * bank + o

/-- The DRAM's bytes: what a bank unit reads (R100, R316). -/
def Die.dram (d : Die) (p n : Nat) : List Byte := d.hbm.bytes p n

/-- Write DRAM bytes, (physical byte, value) in order; the home slice lets its copies of the lines go first (R77). -/
def Die.dramWrite (d : Die) (cells : List (Nat × Byte)) : Die :=
  ((distinct (cells.map (fun c => c.1 / 128))).foldl (fun d ln => d.flushLine ln) d).setDram cells

/-- A unit writes a burst: the U tag of its row is set (R83). -/
def State.unitWrite (s : State) (pch p : Nat) (bs : List Byte) : State :=
  let tag := bankOf p * 49152 + rowOf p
  (s.modDie (dieOfPch pch) (fun d => d.dramWrite (numbered p bs))).modSeqr pch (fun q => { q with
    utags := if q.utags.contains tag then q.utags else tag :: q.utags })

/-- The controller serves physical bytes of a die itself: the check bits of their rows are recomputed first (R84). -/
def State.ctlClear (s : State) (die : Nat) (ps : List Nat) : State :=
  (distinct (ps.map (· / 128))).foldl (fun s ln => s.clearU die ln true) s

/-- The controller writes bytes to any page of the die, check bits included. -/
def State.ctlWrite (s : State) (die : Nat) (cells : List (Nat × Byte)) : State :=
  (s.ctlClear die (cells.map (·.1))).modDie die (fun d => d.dramWrite cells)

/-- An access of a call's controller waits while another session holds a channel that it needs (R98).  Its own session holds up no
access of the call, as the model reads R98 (log entry 101). -/
def State.ctlBusy (s : State) (pch : Nat) (ps : List Nat) : Bool :=
  (distinct (ps.map (· / 128))).any (fun ln => pchOf (dieOfPch pch) (128 * ln) != pch && s.lineHeld (dieOfPch pch) ln)

/-! ## What a call's turn decides (R97, R101, R102) -/

/-- What the translation of a call's addresses comes to: it waits for a channel that another session holds, breaks a condition of PAGE,
or finds where they are. -/
inductive Found (α : Type) where
  | waits | bad
  | at_ (x : List α)
deriving DecidableEq, Repr

def Found.append {α : Type} : Found α → Found α → Found α
  | .at_ a, .at_ b => .at_ (a ++ b)
  | .waits, _ => .waits
  | _, .waits => .waits
  | _, _ => .bad

/-- Translate the 64 KiB pages under n bytes at an address for a call, which its own session does not hold up (log entry 101). -/
def State.callPages (s : State) (c : Call) (write striped : Bool) : List Nat → Found (Nat × Nat) × State
  | [] => (.at_ [], s)
  | pg :: r =>
    let (x, s) := s.translate (whoOf c.sys) write (65536 * pg) (· == c.pch)
    let here : Found (Nat × Nat) :=
      match x with
      | .home d p _ _ bs => if d == dieOfPch c.pch && (!striped || (bs && pchOf d p == c.pch)) then .at_ [(pg, p)] else .bad
      | .busy => .waits
      | _ => .bad
    let (rest, s) := State.callPages s c write striped r
    (here.append rest, s)

/-- An operand of an entry: its address, its bytes, its alignment, whether it must lie in one bank-striped page, and whether the
entry writes it. -/
structure Operand where
  a       : Nat
  n       : Nat
  al      : Nat
  striped : Bool
  write   : Bool

def Operand.pages (o : Operand) : List Nat := (List.range ((o.a + o.n - 1) / 65536 + 1 - o.a / 65536)).map (· + o.a / 65536)

/-- Whether an operand that must lie in one page does, and no operand is longer than one. -/
def Operand.onePage (o : Operand) : Bool := !o.striped || o.a / 2 ^ 21 == (o.a + o.n - 1) / 2 ^ 21

/-- The pages of all operands. -/
def State.operandPages (s : State) (c : Call) : List Operand → Found (Nat × Nat) × State
  | [] => (.at_ [], s)
  | o :: os =>
    let (r, s) := State.operandPages s c os
    if !o.onePage then (Found.append .bad r, s)
    else
      let (l, s) := s.callPages c o.write o.striped o.pages
      (l.append r, s)

def Call.arg (c : Call) (k : Nat) : Nat := ((c.args[k]?).getD 0).toNat

/-- E of an entry: a positive multiple of 4,096. -/
def badE (e : Nat) : Bool := e == 0 || e % 4096 != 0

def bs512 (a n : Nat) (w : Bool) : Operand := ⟨a, n, 512, true, w⟩

/-- The limits of the arguments of a built-in entry, alignment apart. -/
def Call.badLimits (c : Call) : Bool :=
  match c.entry with
  | 2 =>
    let m := c.arg 3
    let n := c.arg 4
    m % 16 != 0 || n % 16 != 0 || decide (m < 16) || decide (112 < m) || decide (n < 16) || decide (256 < n)
  | 3 => badE (c.arg 3) || decide (2 ^ 32 ≤ c.arg 2)
  | 4 => badE (c.arg 2)
  | 5 => badE (c.arg 5)
  | 6 => badE (c.arg 5 % 2 ^ 32) || decide (2 ^ 33 ≤ c.arg 5)
  | 7 => decide (c.arg 3 < 1) || decide (2048 < c.arg 3)
  | _ => false

/-- E of the optimisers. -/
def Call.elems (c : Call) : Nat := if c.entry = 6 then c.arg 5 % 2 ^ 32 else c.arg 5

/-- The operands of a built-in entry (R101).  REQ4's slot image, for whose elements the spec names no size, may begin at any byte: the
model's choice (log entry 115). -/
def Call.operands (c : Call) : List Operand :=
  match c.entry with
  | 2 => [bs512 (c.arg 0) (2 * c.arg 3 * c.arg 4) false, ⟨c.arg 1, 2 * c.arg 4, 2, false, false⟩, ⟨c.arg 2, 64 * c.arg 3, 4, false, true⟩]
  | 3 => [bs512 (c.arg 0) (4 * c.arg 3) false, bs512 (c.arg 1) (4 * c.arg 3) true]
  | 4 => [bs512 (c.arg 0) (4 * c.arg 2) false, ⟨c.arg 1, c.arg 2 / 64, 4, false, true⟩]
  | 5 => [bs512 (c.arg 0) (2 * c.elems) true, bs512 (c.arg 1) (4 * c.elems) false, bs512 (c.arg 2) (4 * c.elems) true,
      bs512 (c.arg 3) (4 * c.elems) true, ⟨c.arg 4, 256, 128, false, false⟩]
  | 6 =>
    let p1 := bitAt (c.arg 5) 32
    [bs512 (c.arg 0) (2 * c.elems) p1, bs512 (c.arg 1) (4 * c.elems) false, bs512 (c.arg 2) (4 * c.elems) (!p1),
      bs512 (c.arg 3) (4 * c.elems) (!p1), ⟨c.arg 4, 256, 128, false, !p1⟩]
  | 7 => [bs512 (c.arg 0) (512 * c.arg 3) false, ⟨c.arg 1, 256 * c.arg 3, 1, false, true⟩, ⟨c.arg 2, 256, 128, false, false⟩]
  | _ => []

/-- A physical byte of an operand, as the call translated it. -/
def physOf (pages : List (Nat × Nat)) (a : Nat) : Nat :=
  (((pages.find? (fun p => p.1 == a / 65536)).map (·.2)).getD 0) + a % 65536

def State.callBytes (s : State) (pch : Nat) (pages : List (Nat × Nat)) (a n : Nat) : List Byte :=
  (List.range n).map (fun k => (s.die (dieOfPch pch)).hbm.byte (physOf pages (a + k)))

/-- The physical bytes of the parameter block of a call that has one, when its own pages allow it; it waits for another session
that holds a channel of it. -/
def State.paramBytes (s : State) (c : Call) : Found Nat × State :=
  let k := if c.entry = 7 then 2 else 4
  if c.entry < 5 || 7 < c.entry then (.bad, s)
  else
    let o : Operand := ⟨c.arg k, 256, 128, false, false⟩
    match s.callPages c false false o.pages with
    | (.at_ l, s) =>
      let ps := (List.range 256).map (fun j => physOf l (o.a + j))
      (if s.ctlBusy c.pch ps then .waits else .at_ ps, s)
    | (.waits, s) => (.waits, s)
    | (.bad, s) => (.bad, s)

/-- A value that must exceed 0 and be no NaN. -/
def notPositive (bits : Nat) : Bool :=
  match fp32.value bits with
  | .nan => true
  | .inf n => n
  | .num n m _ _ => n || m == 0

/-- Conditions of R102 on every parameter block, and of R107 on REQ4's. -/
def Call.badParams (c : Call) (b : List Byte) : Bool :=
  notPositive (numAt b 0 4) || notPositive (numAt b 24 4)
    || (c.entry == 7 && !termOk ((List.range 16).map (fun i => termOf (numAt b (48 + 2 * i) 2))))

/-- What a call's turn comes to: it waits, ends with a status, or runs on the pages of its operands. -/
inductive Turned where
  | waits
  | ends (status : Nat)
  | runs (pages : List (Nat × Nat))
deriving DecidableEq, Repr

/-- The order of R97, once the parameter block, which is read before PAGE is decided, has passed R102. -/
def State.turnPages (s : State) (q : Seqr) (c : Call) : Turned × State :=
  match s.operandPages c c.operands with
  | (.waits, s) => (.waits, s)
  | (.bad, s) => (.ends stPage, s)
  | (.at_ l, s) => (if 2 ≤ c.entry && !q.ownSession c then .ends stNoSess else .runs l, s)

/-- What a call's turn comes to, in the order of R97. -/
def State.turn (s : State) (q : Seqr) (c : Call) : Turned × State :=
  if q.withdrawn || q.aborted.contains (c.field, c.stream) then (.ends stAborted, s)
  else if 8 ≤ c.entry && s.starts.rd 0 c.entry == 0 then (.ends stNoEntry, s)
  else if c.badLimits || c.operands.any (fun o => o.a % o.al != 0) then (.ends stArgs, s)
  else
    match s.paramBytes c with
    | (.waits, s) => (.waits, s)
    | (.bad, s) => s.turnPages q c
    | (.at_ ps, s) =>
      let b := ps.map (s.die (dieOfPch c.pch)).hbm.byte
      let s := s.ctlClear (dieOfPch c.pch) ps
      if c.badParams b then (.ends stArgs, s) else s.turnPages q c

/-- An event of a pseudo-channel's sequencer, in the place of seq a free time later (log entry 1). -/
def State.sequencerLater (s : State) (pch seq : Nat) (ev : Instr) : State :=
  let (k, s) := s.drawFree
  { s with agenda := ⟨none, s.now + k, phLand, seq, ev, pch⟩ :: s.agenda }

/-- The event in which a call that runs takes effect. -/
def entryEvent (pch : BitVec 9) (entry : Nat) : Instr :=
  match entry with
  | 0 => .abmEnter
  | 1 => .abmExit
  | 2 => .matvec16
  | 3 => .axpy32
  | 4 => .norm2
  | 5 => .optClip
  | 6 => .optTrust
  | 7 => .req4
  | _ => .microwordStep pch none

/-- CALL_START (R89, R96, R101): the call's turn comes; it runs, or ends with the status that keeps it from running. -/
def execCallStart (pch : BitVec 9) (id : Nat) (s : State) : Out3 :=
  let q := s.seqr pch.toNat
  match q.held.find? (fun c => c.id == id) with
  | none => .next s
  | some c =>
    let (turned, s1) := s.turn q c
    if !s.callReady q c then .next s
    else if turned == .waits then .next (s.later c.id 1 (.callStart pch id))
    else
      let s := s1
      let (st, pages) : Option Nat × List (Nat × Nat) := match turned with
        | .runs l => (none, l)
        | .ends st => (some st, [])
        | .waits => (none, [])
      let start := (s.starts.rd 0 c.entry).toNat
      let s := s.modSeqr pch.toNat (fun q => { q.advance c.field c.stream with
        held := q.held.filter (fun x => x.id != id),
        aborted := if c.entry = 1 then q.aborted.filter (fun x => !(x == (c.field, c.stream))) else q.aborted,
        running := some ⟨c, start, st.getD 0, st.isSome, pages⟩,
        ar := if st.isSome then q.ar else (numbered 0 (c.args.take 6)).foldl (fun t e => t.wr 0 e.1 e.2) [],
        lc0 := if st.isSome then q.lc0 else 0, lc1 := if st.isSome then q.lc1 else 0 })
      .next (s.sequencerLater pch.toNat c.id (if st.isSome then .callEnd else entryEvent pch c.entry))

/-- A running call has done its work: it ends a free time later. -/
def State.finishCall (s : State) (pch status : Nat) : State :=
  match (s.seqr pch).running with
  | none => s
  | some r =>
    (s.modSeqr pch (fun q => { q with running := some { r with status := Nat.lor r.status status, ended := true } })).sequencerLater
      pch r.call.id .callEnd

/-- CALL_END (R97): the event and the status; the session's idle time begins (R99), and the next call may start. -/
def execCallEnd (s : State) : Out3 :=
  match (s.seqr s.selPch).running with
  | none => .next s
  | some r =>
    if !r.ended then .next s
    else
      let c := r.call
      let s := s.endCall c r.status
      let s := (s.modSeqr s.selPch (fun q => { q with running := none })).idleSession s.selPch c.field c.stream
      .next (s.offerCalls s.selPch)

/-! ## Sessions (R98, R99, R490) -/

/-- What waited for a session goes on as it closes (R98): accesses that later stores had passed are served, and writes other than of
core-path stores reach HBM4. -/
def State.afterSession (s : State) (pch : Nat) : State :=
  let s := s.serveHeld pch
  let go (b : Late) : Bool := b.cls != 0 && pchOf (dieOfPch pch) (128 * b.line) == pch
  if ((s.die (dieOfPch pch)).late.any go) then s.drainDie (dieOfPch pch) go else s

/-- Charge one window of a session: 2 units of the field's class-B grants, else the overrun of R31. -/
def State.chargeSession (s : State) (pch : Nat) : State :=
  match (s.seqr pch).session with
  | none => s
  | some x =>
    let w := windowOf s.global
    let spend (s : State) : State := { s with col := { s.col with spent := (w, 2) :: s.col.spent } }
    if x.excess then spend s
    else
      match s.col.charge s.now x.field 1 w 2 with
      | .ok c => { s with col := c }
      | .error _ =>
        let s := s.modSeqr pch (fun q => { q with session := some { x with excess := true } })
        let fs := if s.col.overran.contains x.field then s.col.overran else x.field :: s.col.overran
        spend { s.markSet 0x11000C 2 with col := { s.col with ovrun := true, overran := fs } }

/-- ABM_ENTER: the session opens with an ABME, of a row the spec leaves open; of a stream that holds it, nothing changes. -/
def execAbmEnter (s : State) : Out3 :=
  match (s.seqr s.selPch).running with
  | none => .next s
  | some r =>
    if r.ended || r.call.entry != 0 then .next s
    else if (s.seqr s.selPch).ownSession r.call then .next (s.finishCall s.selPch 0)
    else
      let (k, s) := s.drawFree
      let s := s.modSeqr s.selPch (fun q => { q with
        session := some ⟨r.call.field, r.call.stream, some (k % 49152), none, false⟩ })
      .next ((s.chargeSession s.selPch).finishCall s.selPch 0)

/-- ABM_EXIT: the ABMX closes the session; the waiting accesses and calls go on. -/
def execAbmExit (s : State) : Out3 :=
  match (s.seqr s.selPch).running with
  | none => .next s
  | some r =>
    if r.ended || r.call.entry != 1 then .next s
    else
      let s := if (s.seqr s.selPch).ownSession r.call then (s.modSeqr s.selPch (fun q => { q with session := none })).afterSession s.selPch else s
      .next (s.finishCall s.selPch 0)

/-- SESSION_TIMEOUT (R99): 100 µs after a session's last call ended with none following, the controller closes it and marks its
stream aborted. -/
def execSessionTimeout (s : State) : Out3 :=
  match (s.seqr s.selPch).session with
  | none => .next s
  | some x =>
    .next (match x.lastEnd with
      | none => s
      | some e =>
        if s.now < e + 200000 then s
        else
          let s := s.modSeqr s.selPch (fun q => { q with session := none, aborted := (x.field, x.stream) :: q.aborted })
          (s.afterSession s.selPch).offerCalls s.selPch)

/-- REFRESH_BREAK (R81): it changes no register, no result and no order. -/
def execRefreshBreak (s : State) : Out3 := .next s

/-- At completion of a field its sessions close at once and its calls are discarded, no event counted (R95, R99). -/
def State.dropCalls (s : State) (f : Nat) : State :=
  let s := { s with calls := s.calls.filter (fun c => c.field != f) }
  (s.seqrs.map (·.1)).foldl (fun s k =>
    let s := (s.modSeqr k (fun q => { q with
      held := q.held.filter (fun c => c.field != f),
      running := q.running.filter (fun r => r.call.field != f),
      session := q.session.filter (fun x => x.field != f),
      expect := q.expect.filter (fun e => e.1 != f),
      aborted := q.aborted.filter (fun e => e.1 != f) }))
    (if (s.seqr k).session.isNone then s.afterSession k else s).offerCalls k) s

end Sys2Proof.Machine
end

