-- ==== Sys2Proof/Machine/BankUnits.lean ====
section
/-! DEFINITION. The bank units: their arithmetic (R86 to R88, R93), micro-words (R89 to R94), the built-in entries (R101 to R107),
and errors in the DRAM and the control store (R84, R85, R94). -/

namespace Sys2Proof.Machine

open Sys2Proof

/-! ## BankUnit arithmetic (R88, R93)

A lane is 32 bits of FP32.  Each operation answers its result and whether it is a NaN. -/

def laneV (x : W32) : Fv := fp32.value x.toNat

/-- Round a lane; the second part says that a NaN arose. -/
def lane (x : Fv) : W32 × Bool := (.ofNat 32 (fp32.round false x).1, x.isNan)

def laneOfInt (neg : Bool) (m : Nat) : W32 := (lane (.num neg m 0 false)).1

/-- The 16 lanes of a register. -/
abbrev Vec := List W32

def vget (v : Vec) (l : Nat) : W32 := (v[l]?).getD 0

def orNan (l : List (W32 × Bool)) : Vec × Bool := (l.map (·.1), l.any (·.2))

/-- A lane that holds an integer code of magnitude up to 32767: its sign and magnitude. -/
def codeOf (a : W32) : Option (Bool × Nat) :=
  match laneV a with
  | .num n m e _ =>
    let (k, f) := roundInt 32 (.num false m e false)
    if f &&& flNX == 0 && k ≤ 32767 then some (n, k.toNat) else none
  | _ => none

/-- LVAL of a lane: ±2^((|a| − 16384)/256), and 0 with its sign for a code of 0.  Of a lane that holds no code the spec gives no
value: it is free, and a NaN stays one (log entry 12). -/
def lval (a : W32) : W32 × Bool :=
  match codeOf a with
  | none => if (laneV a).isNan then lane .nan else (.ofNat 32 (Config.unitOpen a.toNat 2), false)
  | some (n, m) =>
    if m = 0 then lane (Fv.zero n)
    else
      match ((Fv.num false m 0 false).add (.num true 16384 0 false)).1 with
      | .num nx mx ex _ =>
        let x := (Fv.exp2 (.num nx mx (ex - 8) false)).1
        lane (if n then x.neg else x)
      | x => lane x

/-- LSTEP: the magnitude moves by the rounded step, within 1..32767; the sign and a zero stay.  A NaN step counts as 0 and is noted,
whatever the code.  The result of a lane that holds no code is free (log entry 12). -/
def lstep (a b : W32) : W32 × Bool :=
  let nan := (laneV b).isNan
  match codeOf a with
  | none => (.ofNat 32 (Config.unitOpen (a.toNat + 2 ^ 32 * b.toNat) 0), nan)
  | some (n, m) =>
    if m = 0 then (a, nan)
    else
      match (if n then (laneV b).neg else laneV b) with
      | .nan => (laneOfInt n m, nan)
      | .inf neg => (laneOfInt n (if neg then 32767 else 1), nan)
      | x => (laneOfInt n (clampI 1 32767 ((m : Int) - (roundInt 32 x).1)).toNat, nan)

/-- RED: the lanes summed in order, into every lane. -/
def foldLanes (v : Vec) : W32 × Bool :=
  (v.drop 1).foldl (fun acc x => let (r, n) := lane ((laneV acc.1).add (laneV x)).1; (r, acc.2 || n)) (vget v 0, false)

/-- One operation on one register's lanes: UOP, a, b and d (R93). -/
def unitOp (uop : Nat) (a b d : Vec) : Vec × Bool :=
  let each (f : Fv → Fv → Fv → Fv) : Vec × Bool :=
    orNan ((List.range 16).map (fun l => lane (f (laneV (vget a l)) (laneV (vget b l)) (laneV (vget d l)))))
  match uop with
  | 1 => each (fun x _ _ => x)
  | 2 => each (fun x y _ => (x.add y).1)
  | 3 => each (fun x y _ => (x.sub y).1)
  | 4 => each (fun x y _ => (x.mul y).1)
  | 5 => each (fun x y z => (x.fma y z).1)
  | 6 => each (fun x y _ => x.pick true y)
  | 7 => each (fun x y _ => x.pick false y)
  | 8 => each (fun x _ _ => (Fv.one.div x).1)
  | 9 => each (fun x _ _ => x.rsq.1)
  | 10 => let (s, n) := foldLanes a; (List.replicate 16 s, n || (laneV (vget a 0)).isNan)
  | 11 => orNan ((List.range 16).map (fun l => lval (vget a l)))
  | 12 => orNan ((List.range 16).map (fun l => lstep (vget a l) (vget b l)))
  | _ => (d, false)

/-! ## Micro-words (R90, R92) -/

structure Micro where
  bus    : Nat
  cnt    : Nat
  areg   : Nat
  bank   : Nat
  all    : Bool
  ireg   : Nat
  imm    : Int
  next   : Nat
  lc     : Bool
  target : Nat
  sop    : Nat
  sd     : Nat
  sa     : Nat
  resC   : Nat
  uop    : Nat
  dst    : Nat
  srca   : Nat
  srcb   : Nat
  bcb    : Bool
  lane   : Nat
  linc   : Bool
  dfmt   : Nat
  ofmt   : Nat
  resU   : Nat

def microWord (w : BitVec 128) : Micro :=
  let n := w.toNat
  { bus := fld n 124 4, cnt := fld n 119 5, areg := fld n 116 3, bank := fld n 112 4, all := bitAt n 111, ireg := fld n 108 3,
    imm := asSigned 12 (fld n 96 12), next := fld n 93 3, lc := bitAt n 92, target := fld n 84 8, sop := fld n 80 4,
    sd := fld n 77 3, sa := fld n 74 3, resC := fld n 64 10, uop := fld n 60 4, dst := fld n 56 4, srca := fld n 52 4,
    srcb := fld n 48 4, bcb := bitAt n 47, lane := fld n 43 4, linc := bitAt n 42, dfmt := fld n 40 2, ofmt := fld n 38 2,
    resU := fld n 0 38 }

/-- A reserved value in a field (R94). -/
def Micro.reserved (m : Micro) : Bool :=
  decide (7 ≤ m.bus) || (m.cnt != 0 && m.bus != 4 && m.bus != 6) || decide (4 ≤ m.next) || decide (3 ≤ m.sop) || m.resC != 0
    || decide (13 ≤ m.uop) || decide (9 ≤ m.dst) || decide (10 ≤ m.srca) || decide (10 ≤ m.srcb) || m.resU != 0
    || ((m.bus == 5 || m.bus == 6) && m.uop != 0)

/-! ## BankUnit registers and data -/

def BankUnit.reg (u : BankUnit) (r : Nat) : Vec := (List.range 16).map (fun l => u.regs.rd 0 (16 * r + l))
def BankUnit.setReg (u : BankUnit) (r : Nat) (v : Vec) : BankUnit :=
  { u with regs := (List.range 16).foldl (fun t l => t.wr 0 (16 * r + l) (vget v l)) u.regs }

def Seqr.unit (q : Seqr) (b : Nat) : BankUnit := q.units.rd ⟨[]⟩ b

/-- Operand D of 32 bytes (R87). -/
def operandD (dfmt : Nat) (bs : List Byte) : Vec :=
  (List.range 16).map (fun l =>
    match dfmt with
    | 0 => (lane (fp16.value (numAt bs (2 * l) 2))).1
    | 1 => if l < 8 then .ofNat 32 (numAt bs (4 * l) 4) else 0
    | 2 => if 8 ≤ l then .ofNat 32 (numAt bs (4 * (l - 8)) 4) else 0
    | _ => let x := numAt bs (2 * l) 2; laneOfInt (bitAt x 15) (x % 2 ^ 15))

/-- The 32 bytes that RACC and WBU put out (R92, R93). -/
def outBytes (ofmt : Nat) (v : Vec) : List Byte :=
  match ofmt with
  | 0 => (List.range 8).flatMap (fun l => leBytes 4 (vget v l).toNat)
  | 1 => (List.range 8).flatMap (fun l => leBytes 4 (vget v (8 + l)).toNat)
  | 2 => (List.range 16).flatMap (fun l => leBytes 2 (fp16.round false (laneV (vget v l))).1)
  | _ => (List.range 16).flatMap (fun l =>
      match codeOf (vget v l) with
      | some (n, m) => leBytes 2 (m + 2 ^ 15 * b2n n)
      | none => leBytes 2 (Config.unitOpen (vget v l).toNat 1))

/-- The registers a source names: v0 to v7, acc, or D. -/
def BankUnit.source (u : BankUnit) (n : Nat) (d : Vec) : Vec := if n = 9 then d else u.reg n

/-- The unit half of a micro-word on one command's data, at column k. -/
def BankUnit.exec (u : BankUnit) (m : Micro) (k : Nat) (bs : List Byte) : BankUnit × Bool :=
  let d := operandD m.dfmt bs
  let b := u.source m.srcb d
  let ln := if m.linc then (m.lane + k) % 16 else m.lane
  let b := if m.bcb then List.replicate 16 (vget b ln) else b
  if m.uop = 0 then (u, false)
  else
    let (v, nan) := unitOp m.uop (u.source m.srca d) b (u.reg m.dst)
    (u.setReg m.dst v, nan)

/-- Run the unit half in one bank's unit; the answer says whether a NaN arose. -/
def Seqr.execUnit (q : Seqr) (m : Micro) (b k : Nat) (bs : List Byte) : Seqr × Bool :=
  let (u, n) := (q.unit b).exec m k bs
  ({ q with units := q.units.wr ⟨[]⟩ b u }, n)

/-- The 32 bytes of a column of the open row in a bank; with no row open, what arrives is open (log entry 12). -/
def State.column (s : State) (pch bank : Nat) (row : Option Nat) (col : Nat) : List Byte :=
  match row with
  | some r => (s.die (dieOfPch pch)).dram (bankByte pch bank r col 0) 32
  | none => (List.range 32).map (fun k => .ofNat 8 (Config.unitOpen s.draw (512 * col + 32 * bank + k)))

/-- Apply an operation to columns col to col + cnt in all banks. -/
def State.macb (s : State) (pch : Nat) (m : Micro) (row : Option Nat) (col : Nat) : State × Bool :=
  (List.range (m.cnt + 1)).foldl (fun acc k =>
    (List.range 16).foldl (fun acc b =>
      let (q, n) := (acc.1.seqr pch).execUnit m b k (acc.1.column pch b row (col + k))
      (acc.1.modSeqr pch (fun _ => q), acc.2 || n)) acc) (s, false)

/-- WBU: every unit writes its output into columns of the open row. -/
def State.wbu (s : State) (pch : Nat) (m : Micro) (row : Option Nat) (col : Nat) : State :=
  match row with
  | none => s
  | some r =>
    (List.range (m.cnt + 1)).foldl (fun s k =>
      (List.range 16).foldl (fun s b =>
        let v := ((s.seqr pch).unit b).source m.srca (operandD m.dfmt (s.column pch b row (col + k)))
        s.unitWrite pch (bankByte pch b r (col + k) 0) (outBytes m.ofmt v)) s) s

/-- The physical bytes, in the pseudo-channel's die, of the 32 bytes at a global address that a BCST or RACC names, once no other session
holds a channel of them; `bad` when one lies outside it (R94, R98). -/
def State.unitGlobal (s : State) (c : Call) (write : Bool) (a : Nat) : Found Nat × State :=
  let page (s : State) (a n : Nat) : Found Nat × State :=
    let (x, s) := s.translate (whoOf c.sys) write a (· == c.pch)
    (match x with
      | .home d p _ _ _ => if d == dieOfPch c.pch then .at_ ((List.range n).map (p + ·)) else .bad
      | .busy => .waits
      | _ => .bad, s)
  let n := min 32 (65536 - a % 65536)
  let (p, s) := page s a n
  let (q, s) : Found Nat × State := if n < 32 then page s ((a + n) % 2 ^ 64) (32 - n) else (.at_ [], s)
  (match p.append q with
    | .at_ ps => if s.ctlBusy c.pch ps then .waits else .at_ ps
    | x => x, s)

/-- What a bus command's step came to: it waits for a channel, ends the call, or is done, with whether a NaN arose. -/
inductive BusDone where
  | waits | ends
  | done (nan : Bool)
deriving DecidableEq, Repr

/-- The bus command of a step (R78, R79).  It ends the call (R94) on an address outside the die; and, as the model's choice, on a row
that no bank has, on columns that pass 31, and on a BCST source that is not 32-byte aligned (log entry 100).  What RACC puts out of
D, for which it has no data, is free (log entry 12). -/
def State.busStep (s : State) (r : RunCall) (m : Micro) : BusDone × State :=
  let pch := r.call.pch
  let die := dieOfPch pch
  let q := s.seqr pch
  let a := (q.ar.rd 0 m.areg).toNat
  let row := (q.session.map (·.row)).getD none
  let col := a % 32
  let setRow (x : Option Nat) : State := s.modSeqr pch (fun q => { q with session := q.session.map (fun y => { y with row := x }) })
  match m.bus with
  | 1 => if 49152 ≤ a then (.ends, s) else (.done false, setRow (some a))
  | 2 => (.done false, setRow none)
  | 3 =>
    if a % 32 ≠ 0 then (.ends, s)
    else
      let (p, s) := s.unitGlobal r.call false a
      (match p with
      | .bad => (.ends, s)
      | .waits => (.waits, s)
      | .at_ ps =>
        let s := s.ctlClear die ps
        let bs := ps.map (s.die die).hbm.byte
        let (q, n) := (if m.all then List.range 16 else [m.bank]).foldl (fun acc b =>
          let (q, n) := acc.1.execUnit m b 0 bs
          (q, acc.2 || n)) (s.seqr pch, false)
        (.done n, s.modSeqr pch (fun _ => q)))
  | 4 =>
    if 32 ≤ col + m.cnt then (.ends, s)
    else let (s, n) := s.macb pch m row col; (.done n, s)
  | 5 =>
    let (p, s) := s.unitGlobal r.call true a
    (match p with
    | .bad => (.ends, s)
    | .waits => (.waits, s)
    | .at_ ps =>
      let open_ : Vec := (List.range 16).map (fun l => .ofNat 32 (Config.unitOpen s.draw (16 + l)))
      let bs := outBytes m.ofmt (((s.seqr pch).unit m.bank).source m.srca open_)
      (.done false, { s.ctlWrite die (ps.zip bs) with draw := s.draw + 1 }))
  | 6 => if 32 ≤ col + m.cnt then (.ends, s) else (.done false, s.wbu pch m row col)
  | _ => (.done false, s)

/-- SOP, the increment and NEXT of a step: the sequencer after it and the next micro-PC, none at the end of the call (R91).  After word
255 comes word 0, the model's choice (log entry 100). -/
def Seqr.advanceStep (q : Seqr) (m : Micro) (upc : Nat) : Seqr × Option Nat :=
  let src := q.ar.rd 0 m.sa
  let q :=
    match m.sop with
    | 1 => if m.lc then { q with lc1 := src.setWidth 16 } else { q with lc0 := src.setWidth 16 }
    | 2 => { q with ar := q.ar.wr 0 m.sd src }
    | _ => q
  let q := { q with ar := q.ar.wr 0 m.ireg (q.ar.rd 0 m.ireg + .ofInt 64 m.imm) }
  match m.next with
  | 1 => (q, some m.target)
  | 2 =>
    let n := (if m.lc then q.lc1 else q.lc0) - 1
    (if m.lc then { q with lc1 := n } else { q with lc0 := n }, some (if n = 0 then (upc + 1) % 256 else m.target))
  | 3 => (q, none)
  | _ => (q, some ((upc + 1) % 256))

/-- An HBM4 bank fails (R34): from the next reset it is mapped out; the failure is a degradation event. -/
def State.bankFails (s : State) (pch bank : Nat) : State :=
  let q := s.seqr pch
  if q.badBanks.contains bank || bitAt (s.sb.map.rd 0 (0x2000 + pch)).toNat bank then s
  else (s.modSeqr pch (fun q => { q with badBanks := bank :: q.badBanks })).setDegnew

/-! ## The built-in entries (R76, R103 to R107) -/

/-- The byte offset of FP32 element e in bank-grouped order; of a 2-byte element it is 2e (R76). -/
def off32 (e : Nat) : Nat :=
  let g := e / 16
  32 * (16 * (2 * (g / 16) + e % 16 / 8) + g % 16) + 4 * (e % 8)

/-- Element l of group h of bank b. -/
def elemOf (b h l : Nat) : Nat := 16 * (16 * h + b) + l

/-- The operands of a running call as bytes. -/
structure CallMem where
  s     : State
  pch   : Nat
  pages : List (Nat × Nat)

def CallMem.num (m : CallMem) (a n : Nat) : Nat := leNat (m.s.callBytes m.pch m.pages a n)
def CallMem.f32 (m : CallMem) (a e : Nat) : W32 := .ofNat 32 (m.num (a + off32 e) 4)

/-- What a built-in entry writes: bursts of bank-striped operands by its units, then ordinary bytes by the controller, each by its
address; and whether a NaN arose. -/
structure Work where
  bursts : List (Nat × List Byte)
  bytes  : List (Nat × List Byte)
  nan    : Bool

def State.putBursts (s : State) (r : RunCall) (cells : List (Nat × List Byte)) : State :=
  cells.foldl (fun s c => s.unitWrite r.call.pch (physOf r.pages c.1) c.2) s

def State.putBytes (s : State) (r : RunCall) (cells : List (Nat × List Byte)) : State :=
  cells.foldl (fun s c => s.ctlWrite (dieOfPch r.call.pch) ((numbered 0 c.2).map (fun b => (physOf r.pages (c.1 + b.1), b.2)))) s

def State.putWork (s : State) (r : RunCall) (w : Work) : State := (s.putBursts r w.bursts).putBytes r w.bytes

/-- Registers that the spec says nothing about after a built-in entry: all of every unit, or those from `lo` down (R86, log
entry 12). -/
def State.freeUnits (s : State) (pch : Nat) : State :=
  let d := s.draw
  { s.modSeqr pch (fun q => { q with
      units := (List.range 16).map (fun b => (b, ⟨(List.range 144).foldl (fun t k =>
        t.wr 0 k (.ofNat 32 (Config.unitOpen d (256 * b + k)))) []⟩)) }) with draw := d + 1 }

/-- The running call, when it is of an entry and has not ended. -/
def State.runningOf (s : State) (entry : Nat) : Option RunCall :=
  ((s.seqr s.selPch).running).filter (fun r => !r.ended && r.call.entry == entry)

/-- The physical bytes of the operands of a call that its controller reads or writes: those that need not be bank-striped. -/
def RunCall.ctlBytes (r : RunCall) : List Nat :=
  ((r.call.operands.filter (fun o => !o.striped)).flatMap (fun o => (List.range o.n).map (fun k => physOf r.pages (o.a + k))))

/-- A built-in entry does its work, once no other session holds a channel that its controller needs (R98); what its controller reads
has its check bits again (R84). -/
def State.runEntry (s : State) (entry : Nat) (ev : Instr) (go : State → RunCall → State) : Out3 :=
  match s.runningOf entry with
  | none => .next s
  | some r =>
    .next (if s.ctlBusy r.call.pch r.ctlBytes then s.sequencerLater r.call.pch r.call.id ev
      else go (s.ctlClear (dieOfPch r.call.pch) r.ctlBytes) r)

def nanStatus (n : Bool) : Nat := if n then stNanCall else 0

/-- One row of MATVEC16: the partial sum of row i in bank b. -/
def matRow (m : CallMem) (c : Call) (b i : Nat) : W32 × Bool :=
  let nb := c.arg 4 / 16
  (List.range nb).foldl (fun acc k =>
    let w := fp16.value (m.num (c.arg 0 + 2 * (elemOf b (i / 16 * nb + k) (i % 16))) 2)
    let x := fp16.value (m.num (c.arg 1 + 2 * (16 * k + b)) 2)
    let (r, n) := lane (w.fma x (laneV acc.1)).1
    (r, acc.2 || n)) (0, false)

/-- v0 of a unit after MATVEC16: x[16c + b] in lane c. -/
def matX (m : CallMem) (c : Call) (d b l : Nat) : W32 :=
  if l < c.arg 4 / 16 then (lane (fp16.value (m.num (c.arg 1 + 2 * (16 * l + b)) 2))).1
  else .ofNat 32 (Config.unitOpen d (16 * b + l))

/-- The partial sums of MATVEC16, by bank and row. -/
def matRows (mem : CallMem) (c : Call) : List (List (W32 × Bool)) :=
  (List.range 16).map (fun b => (List.range (c.arg 3)).map (matRow mem c b))

def matWork (c : Call) (rows : List (List (W32 × Bool))) : Work :=
  ⟨[], (numbered 0 rows).flatMap (fun p =>
    (numbered 0 p.2).map (fun e => (c.arg 2 + 4 * (p.1 * c.arg 3 + e.1), leBytes 4 e.2.1.toNat))), rows.any (fun l => l.any (·.2))⟩

/-- MATVEC16 (R103). -/
def execMatvec16 (s : State) : Out3 :=
  s.runEntry 2 .matvec16 (fun s r =>
    let c := r.call
    let mem : CallMem := ⟨s, c.pch, r.pages⟩
    let rows := matRows mem c
    let w := matWork c rows
    let d := s.draw
    let s := { s.putWork r w with draw := d + 1 }
    let s := s.modSeqr c.pch (fun q => { q with units := (numbered 0 rows).foldl (fun us p =>
      let u := (q.unit p.1).setReg 0 ((List.range 16).map (matX mem c d p.1))
      us.wr ⟨[]⟩ p.1 ((List.range (c.arg 3 / 16)).foldl (fun u k =>
        u.setReg (k + 1) ((p.2.drop (16 * k)).take 16 |>.map (·.1))) u)) q.units })
    s.finishCall c.pch (nanStatus w.nan))

/-- A built-in entry other than MATVEC16: its work, after which the units hold what the spec leaves open. -/
def State.doWork (s : State) (r : RunCall) (w : Work) : State :=
  ((s.putWork r w).freeUnits r.call.pch).finishCall r.call.pch (nanStatus w.nan)

def axpyWork (mem : CallMem) (c : Call) : Work :=
  let al := fp32.value (c.arg 2)
  let ys := (List.range (c.arg 3)).map (fun e => lane (al.fma (laneV (mem.f32 (c.arg 0) e)) (laneV (mem.f32 (c.arg 1) e))).1)
  ⟨(numbered 0 ys).map (fun p => (c.arg 1 + off32 p.1, leBytes 4 p.2.1.toNat)), [], ys.any (·.2)⟩

/-- AXPY32 (R104). -/
def execAxpy32 (s : State) : Out3 :=
  s.runEntry 3 .axpy32 (fun s r => s.doWork r (axpyWork ⟨s, r.call.pch, r.pages⟩ r.call))

/-- The NORM2 rule over some groups of a bank: lanes accumulate in order, then fold (R104). -/
def normOf (f : Nat → Nat → W32) (hs : List Nat) : W32 × Bool :=
  let (v, n) := hs.foldl (fun (acc : Vec × Bool) h =>
    let (v, n) := orNan ((List.range 16).map (fun l =>
      let x := laneV (f h l)
      lane (x.fma x (laneV (vget acc.1 l))).1))
    (v, acc.2 || n)) (List.replicate 16 0, false)
  let (s, n') := foldLanes v
  (s, n || n')

/-- The groups of bank block k. -/
def blockGroups (k : Nat) : List Nat := (List.range 16).map (· + 16 * k)

/-- Every (bank, block) of E elements. -/
def allBlocks (e : Nat) : List (Nat × Nat) := (List.range (e / 4096)).flatMap (fun k => (List.range 16).map (fun b => (b, k)))

def normWork (mem : CallMem) (c : Call) : Work :=
  let ns := (allBlocks (c.arg 2)).map (fun p => (p, normOf (fun h l => mem.f32 (c.arg 0) (elemOf p.1 h l)) (blockGroups p.2)))
  ⟨[], ns.map (fun p => (c.arg 1 + 4 * (16 * p.1.2 + p.1.1), leBytes 4 p.2.1.toNat)), ns.any (·.2.2)⟩

/-- NORM2 (R104). -/
def execNorm2 (s : State) : Out3 :=
  s.runEntry 4 .norm2 (fun s r => s.doWork r (normWork ⟨s, r.call.pch, r.pages⟩ r.call))

/-! ### The optimisers (R102, R105, R106) -/

/-- A value with the NaNs met on the way to it. -/
structure Step where
  v   : W32
  nan : Bool

def Step.of (v : W32) : Step := ⟨v, false⟩
def Step.mk1 (x : Fv) (a b : Step) : Step := let (v, n) := lane x; ⟨v, n || a.nan || b.nan⟩
def Step.mul (a b : Step) : Step := Step.mk1 ((laneV a.v).mul (laneV b.v)).1 a b
def Step.add (a b : Step) : Step := Step.mk1 ((laneV a.v).add (laneV b.v)).1 a b
def Step.rsq (a : Step) : Step := Step.mk1 (laneV a.v).rsq.1 a a
def Step.pick (larger : Bool) (a b : Step) : Step := Step.mk1 ((laneV a.v).pick larger (laneV b.v)) a b
/-- c + a × b, rounded once. -/
def Step.mac (c a b : Step) : Step := let x := Step.mk1 ((laneV a.v).fma (laneV b.v) (laneV c.v)).1 a b; ⟨x.v, x.nan || c.nan⟩

structure Params where
  limit : Step
  eta   : Step
  b1    : Step
  b1c   : Step
  b2    : Step
  b2c   : Step
  eps   : Step
  rmin  : Step
  rmax  : Step
  w2    : Step
  u2    : Step

def CallMem.params (m : CallMem) (a : Nat) : Params :=
  let f (k : Nat) : Step := .of (.ofNat 32 (m.num (a + 4 * k) 4))
  ⟨f 0, f 1, f 2, f 3, f 4, f 5, f 6, f 7, f 8, f 9, f 10⟩

/-- The new m and v of an element and its u, from the clipped gradient. -/
def momentum (p : Params) (m v gc : Step) : Step × Step × Step :=
  let m' := (p.b1.mul m).mac p.b1c gc
  let v' := (p.b2.mul v).mac p.b2c (gc.mul gc)
  (m', v', m'.mul (v'.add p.eps).rsq)

/-- A master after its step d: 16 bits and whether a NaN arose (R93, R241). -/
def stepMaster (w : Nat) (d : Step) : Nat × Bool :=
  let (x, n) := lstep (laneOfInt (bitAt w 15) (w % 2 ^ 15)) d.v
  (match codeOf x with
    | some (sg, m) => m + 2 ^ 15 * b2n sg
    | none => w, n || d.nan)

def lanes16 : List Nat := List.range 16

/-- One bank block of OPT.CLIP: what it writes, and whether a NaN arose. -/
def clipBlock (mem : CallMem) (c : Call) (p : Params) (b k : Nat) : List (Nat × List Byte) × Bool :=
  let (n2, nn) := normOf (fun h l => mem.f32 (c.arg 1) (elemOf b h l)) (blockGroups k)
  let f := Step.pick false (.of 0x3F800000) (p.limit.mul (Step.rsq ⟨n2, nn⟩))
  let es := (blockGroups k).flatMap (fun h => lanes16.map (elemOf b h))
  let out := es.map (fun e =>
    let gc := (Step.of (mem.f32 (c.arg 1) e)).mul f
    let (m, v, u) := momentum p (.of (mem.f32 (c.arg 2) e)) (.of (mem.f32 (c.arg 3) e)) gc
    let (w, n) := stepMaster (mem.num (c.arg 0 + 2 * e) 2) (p.eta.mul u)
    ([(c.arg 0 + 2 * e, leBytes 2 w), (c.arg 2 + off32 e, leBytes 4 m.v.toNat), (c.arg 3 + off32 e, leBytes 4 v.v.toNat)],
      n || v.nan))
  (out.flatMap (·.1), nn || f.nan || out.any (·.2))

def clipWork (mem : CallMem) (c : Call) : Work :=
  let p := mem.params (c.arg 4)
  let out := (allBlocks c.elems).map (fun x => clipBlock mem c p x.1 x.2)
  ⟨out.flatMap (·.1), [], out.any (·.2)⟩

/-- OPT_CLIP (R105). -/
def execOptClip (s : State) : Out3 :=
  s.runEntry 5 .optClip (fun s r => s.doWork r (clipWork ⟨s, r.call.pch, r.pages⟩ r.call))

/-- Pass 0 of OPT.TRUST in one bank: the new m and v, and the bank's W2 and U2. -/
def trustSums (mem : CallMem) (c : Call) (p : Params) (b : Nat) : List (Nat × List Byte) × Step × Step × Bool :=
  let hs := List.range (c.elems / 256)
  let upd (h l : Nat) : Step × Step × Step :=
    let e := elemOf b h l
    momentum p (.of (mem.f32 (c.arg 2) e)) (.of (mem.f32 (c.arg 3) e)) ((Step.of (mem.f32 (c.arg 1) e)).mul (.of 0x3F800000))
  let wv (h l : Nat) : W32 :=
    let w := mem.num (c.arg 0 + 2 * elemOf b h l) 2
    (lval (laneOfInt (bitAt w 15) (w % 2 ^ 15))).1
  let cells := hs.flatMap (fun h => lanes16.flatMap (fun l =>
    let e := elemOf b h l
    let (m, v, _) := upd h l
    [(c.arg 2 + off32 e, leBytes 4 m.v.toNat), (c.arg 3 + off32 e, leBytes 4 v.v.toNat)]))
  let nan := hs.any (fun h => lanes16.any (fun l => (upd h l).2.2.nan))
  let (w2, n1) := normOf wv hs
  let (u2, n2) := normOf (fun h l => (upd h l).2.2.v) hs
  (cells, ⟨w2, n1⟩, ⟨u2, n2⟩, nan || n1 || n2)

/-- ρ of pass 1. -/
def trustRatio (p : Params) : Step :=
  let zero (x : Step) : Bool := match laneV x.v with
    | .num _ m _ _ => m == 0
    | _ => false
  let r := if zero p.w2 || zero p.u2 then Step.of 0x3F800000 else (p.w2.mul p.w2.rsq).mul p.u2.rsq
  (r.pick true p.rmin).pick false p.rmax

def trustWork (mem : CallMem) (c : Call) : Work :=
  let p := mem.params (c.arg 4)
  let blk := c.arg 4
  if bitAt (c.arg 5) 32 then
    let rho := trustRatio p
    let out := (List.range c.elems).map (fun e =>
      let u := (Step.of (mem.f32 (c.arg 2) e)).mul ((Step.of (mem.f32 (c.arg 3) e)).add p.eps).rsq
      let (w, n) := stepMaster (mem.num (c.arg 0 + 2 * e) 2) (p.eta.mul (rho.mul u))
      ((c.arg 0 + 2 * e, leBytes 2 w), n))
    ⟨out.map (·.1), [], rho.nan || out.any (·.2)⟩
  else
    let out := lanes16.map (trustSums mem c p)
    ⟨out.flatMap (·.1), (numbered 0 out).flatMap (fun x =>
      [(blk + 128 + 8 * x.1, leBytes 4 x.2.2.1.v.toNat), (blk + 132 + 8 * x.1, leBytes 4 x.2.2.2.1.v.toNat)]), out.any (·.2.2.2)⟩

/-- OPT_TRUST (R106). -/
def execOptTrust (s : State) : Out3 :=
  s.runEntry 6 .optTrust (fun s r => s.doWork r (trustWork ⟨s, r.call.pch, r.pages⟩ r.call))

/-! ### REQ4 (R107) -/

/-- The valid entry of a sign nearest to code c under offset b: |e + b − (c − 16384)/32| least, then the smaller e, then the lower
index. -/
def reqEntry (ts : List Term) (b : Int) (neg : Bool) (c : Nat) : Option Nat :=
  ((numbered 0 ts).foldl (fun (best : Option (Nat × Nat × Int)) t =>
    if t.2.nonzero && t.2.sign == neg then
      let d := (32 * (t.2.e + b) - ((c : Int) - 16384)).natAbs
      match best with
      | none => some (t.1, d, t.2.e)
      | some (i, d', e') => if d < d' || (d == d' && decide (t.2.e < e')) then some (t.1, d, t.2.e) else some (i, d', e')
    else best) none).map (·.1)

/-- The block offset and the eight indices of a block of codes. -/
def reqBlock (ts : List Term) (codes : List (Bool × Nat)) : Int × List Nat :=
  let cmax := maxNat (codes.map (·.2))
  let es := (ts.filter Term.nonzero).map (·.e)
  let etop := (es.max?).getD 0
  let b := if cmax = 0 then 0 else clampI (-128) 127 (((cmax : Int) - 16384 + 16) / 32 - etop)
  (b, codes.map (fun x => (if x.2 = 0 then none else reqEntry ts b x.1 x.2).getD ((zeroIdx ts).getD 0)))

/-- One column's 256-byte image (R244). -/
def reqColumn (ts : List Term) (bscale : Nat) (codes : List (Bool × Nat)) : List Byte :=
  let bs := (List.range 32).map (fun m => reqBlock ts ((codes.drop (8 * m)).take 8))
  let idx := bs.flatMap (·.2)
  (List.range 128).map (fun k => BitVec.ofNat 8 ((idx[2 * k]?).getD 0 + 16 * (idx[2 * k + 1]?).getD 0))
    ++ bs.map (fun b => BitVec.ofInt 8 b.1) ++ leBytes 2 bscale ++ List.replicate 94 0

def reqWork (mem : CallMem) (c : Call) : Work :=
  let ts := (List.range 16).map (fun i => termOf (mem.num (c.arg 2 + 48 + 2 * i) 2))
  let bscale := mem.num (c.arg 2 + 44) 2
  let code (e : Nat) : Bool × Nat := let w := mem.num (c.arg 0 + 2 * e) 2; (bitAt w 15, w % 2 ^ 15)
  ⟨[], (List.range (c.arg 3)).map (fun j =>
    (c.arg 1 + 256 * j, reqColumn ts bscale ((List.range 256).map (fun k => code (256 * j + k))))), false⟩

/-- REQ4 (R107). -/
def execReq4 (s : State) : Out3 :=
  s.runEntry 7 .req4 (fun s r => s.doWork r (reqWork ⟨s, r.call.pch, r.pages⟩ r.call))

/-! ## Steps of a loaded entry, and on-die errors (R85, R91, R94, R97) -/

/-- An uncorrectable on-die error in a row of a bank (R34, R85): a record, of class BANKUNIT when the row's U tag is set, and the bank
fails. -/
def State.unitError (s : State) (pch bank row f addr : Nat) : State :=
  let cls := if (s.seqr pch).utags.contains (bank * 49152 + row) then 0x09 else 0x08
  (s.bankFails pch bank).machineCheck cls 0xFFFF f addr

/-- The work of a built-in entry. -/
def entryWork (mem : CallMem) (c : Call) : Work :=
  match c.entry with
  | 2 => matWork c (matRows mem c)
  | 3 => axpyWork mem c
  | 4 => normWork mem c
  | 5 => clipWork mem c
  | 6 => trustWork mem c
  | 7 => reqWork mem c
  | _ => ⟨[], [], false⟩

/-- A built-in entry stops with ECC or ABORTED: it has written some of its outputs, freely chosen, and no others, and a NaN may have arisen
before (R97, log entry 12). -/
def State.stopEntry (s : State) (r : RunCall) (status : Nat) : State :=
  let w := entryWork ⟨s, r.call.pch, r.pages⟩ r.call
  let d := s.draw
  let some_ (base : Nat) (l : List (Nat × List Byte)) : List (Nat × List Byte) :=
    ((numbered base l).filter (fun x => bitAt (Config.unitOpen d x.1) 0)).map (·.2)
  let w : Work := ⟨some_ 1 w.bursts, some_ (1 + w.bursts.length) w.bytes, w.nan && bitAt (Config.unitOpen d 0) 0⟩
  (({ s with draw := d + 1 }.putWork r w).freeUnits r.call.pch).finishCall r.call.pch (Nat.lor status (nanStatus w.nan))

/-- MICROWORD_STEP (R91, R94): one step of a loaded entry; `ecc` names the bank and the row when a read of the running call meets an
uncorrectable on-die error, and the call stops (R85).  The record of that error holds address 0, the model's choice (log entry 62). -/
def execMicrowordStep (pch : BitVec 9) (ecc : Option (BitVec 4 × Nat)) (s : State) : Out3 :=
  match (s.seqr pch.toNat).running with
  | none => .next s
  | some r =>
    if r.ended || r.call.entry < 2 then .next s
    else
      match ecc with
      | some (bank, row) =>
        let s := s.unitError pch.toNat bank.toNat row r.call.field 0
        .next (if r.call.entry < 8 then s.stopEntry r stEcc else s.finishCall pch.toNat stEcc)
      | none =>
        if r.call.entry < 8 then .next s
        else
          let m := microWord (s.micro.rd 0 r.upc)
          if m.reserved then .next (s.finishCall pch.toNat stIlluw)
          else
            match s.busStep r m with
            | (.ends, s) => .next (s.finishCall pch.toNat stIlluw)
            | (.waits, s) => .next (s.sequencerLater pch.toNat r.call.id (.microwordStep pch none))
            | (.done nan, s) =>
              let (q, next) := (s.seqr pch.toNat).advanceStep m r.upc
              let st := Nat.lor r.status (nanStatus nan)
              let s := s.modSeqr pch.toNat (fun _ => { q with running := some { r with upc := next.getD 0, status := st } })
              .next (match next with
                | none => s.finishCall pch.toNat 0
                | some _ => s.later r.call.id 0 (.microwordStep pch none))

/-! ## Standard accesses and errors (R84, R85, R94) -/

/-- HBM_STANDARD_ACCESS: while no session is open, a row whose U tag is set has its check bits recomputed and the tag cleared; an
uncorrectable error found there gives the access's context MACHINE 0x06 and a record, and maps the bank out at the next reset.  The
burst that the access asked for is free after that (R85, log entry 12). -/
def execHbmStandardAccess (pch : BitVec 9) (bank : BitVec 4) (row : Nat) (ecc : Bool) (who : Option (BitVec 8 × BitVec 2))
    (addr : W64) (s : State) : Out3 :=
  let q := s.seqr pch.toNat
  let tag := bank.toNat * 49152 + row
  if q.session.isSome || !q.utags.contains tag then .next s
  else
    let f := (who.map (fun w => (s.ctx w.1.toNat w.2.toNat).field.getD 0xFFFF)).getD 0xFFFF
    let s1 := if ecc then s.unitError pch.toNat bank.toNat row f addr.toNat else s
    let s1 := s1.modSeqr pch.toNat (fun q => { q with utags := q.utags.filter (· != tag) })
    if !ecc then .next s1
    else
      let d := s1.draw
      let p := bankByte pch.toNat bank.toNat row (addr.toNat % 2 ^ 14 / 512) 0
      let s2 := { s1 with draw := d + 1 }.modDie (dieOfPch pch.toNat) (fun x =>
        x.dramWrite ((List.range 32).map (fun k => (p + k, BitVec.ofNat 8 (Config.unitOpen d k)))))
      .next (match who with
        | none => s2
        | some (t, h) => s2.modCtx t.toNat h.toNat (fun c => c.report s2.now 0 none (machine 6 addr.toNat 0)))

/-- A pseudo-channel's service ends for the life of the package: its open session closes (R37, R43). -/
def State.withdraw (s : State) (pch : Nat) (banks : Nat) : State :=
  let was := (s.seqr pch).withdrawn
  let old := (s.sb.map.rd 0 (0x2000 + pch)).toNat
  let s := (s.modSeqr pch (fun q => { q with withdrawn := true, session := none })).afterSession pch
  let s := s.sbMap (0x2000 + pch) (Nat.lor (Nat.lor old banks) (2 ^ 16))
  if was then s else s.degrade 0x034 1

/-- CONTROL_STORE_ERROR (R94). -/
def execControlStoreError (pch : BitVec 9) (corrected : Bool) (s : State) : Out3 :=
  if corrected then .next (s.bump 0x029 1)
  else
    let close (s : State) (f : Nat) : State := (s.withdraw pch.toNat 0).machineCheck 0x0A 0xFFFF f 0
    .next (match (s.seqr pch.toNat).running with
      | none => (close s 0xFFFF).offerCalls pch.toNat
      | some r =>
        if r.ended then (close s r.call.field).offerCalls pch.toNat
        else if 2 ≤ r.call.entry && r.call.entry < 8 then close (s.stopEntry r stAborted) r.call.field
        else close (s.finishCall pch.toNat stAborted) r.call.field)

end Sys2Proof.Machine
end

