-- ==== Sys2Proof/Machine/Package.lean ====
section
/-! DEFINITION. The package: bring-up (R133, R136, R137), resets and shutdown (R108, R113), temperature and supply (R18 to R21),
degradation (R34 to R37), the windows of the Col (R490) and the Scorebook (R38 to R45). -/

namespace Sys2Proof.Machine

open Sys2Proof

/-! ## Resets (R10, R39, R113, R136) -/

/-- What survives a reset: the Scorebook, the fuses, the stored firmware, and banks that wait to be mapped out; the outside world
goes on, and so do the temperatures; what this package had on its way to a home slice is lost. -/
def State.restart (s : State) : State :=
  { State.reset with
    now := s.now, gzero := s.now, inputs := s.inputs.filter (fun i => !i.stores.any (·.seq.isSome)), out := s.out, draw := s.draw, nextId := s.nextId,
    sb := { Scorebook.reset with counters := s.sb.counters, shadow := s.sb.shadow, map := s.sb.map, snapSeq := s.sb.snapSeq },
    seqrs := s.seqrs.filterMap (fun e =>
      if e.2.badBanks.isEmpty then none else some (e.1, { Seqr.idle with badBanks := e.2.badBanks })),
    pkg := { PkgRegs.reset with sensors := s.pkg.sensors },
    hport := { HostPort.reset with serial := s.hport.serial, minSvn := s.hport.minSvn, fwStore := s.hport.fwStore },
    agenda := bootEnd s.now :: lifetimeTicks s.now }

/-- POWER_LOSS (R39): increments not yet committed are lost, and nothing runs until power returns. -/
def execPowerLoss (s : State) : Out3 :=
  let s := s.restart
  .next { s with
    sb := { s.sb with shadow := [] }, pkg := { s.pkg with powered := false }, agenda := [] }

/-- POWER_ON_RESET (R136): bring-up begins at stage 0, and the reset is counted (R40). -/
def execPowerOnReset (s : State) : Out3 :=
  let s := s.restart
  .next ({ s with sb := { s.sb with shadow := [] } }.bump 0x001 1)

/-- A reset by register or by the PCIe function (R108, R113): the Scorebook's own ticks, and the sampling of the temperature, go on. -/
def State.deviceReset (s : State) : State :=
  if !s.pkg.powered then s
  else
    { s.restart with
      agenda := bootEnd s.now :: s.agenda.filter (fun d => d.ev == Instr.scorebookSecondTick || d.ev == Instr.scorebookCommit
        || d.ev == Instr.tempSample []) }

/-- DEV_RESET (R113); it works after a shutdown too. -/
def execDevReset (s : State) : Out3 := .next (if s.bar0Open then s.deviceReset else s)

/-- FUNCTION_LEVEL_RESET (R108). -/
def execFunctionLevelReset (s : State) : Out3 := .next s.deviceReset

/-- Bring-up stage 3 has written the FW fields; until then each reads zero (R10, R136). -/
def State.fwWritten (s : State) : Bool := decide (4 ≤ s.hport.stage) && s.hport.stage != 15

/-- DEV_COMMITSVN (R112). -/
def execDevCommitsvn (s : State) : Out3 :=
  .next (if !s.bar0Open || s.hport.shutdown then s
    else { s with hport := { s.hport with minSvn := max s.hport.minSvn s.hport.svn } })

/-- Something that happens within a bound, at a free cycle (log entry 1). -/
def State.within (s : State) (bound : Nat) (ev : Instr) : State :=
  let (k, s) := s.drawFree
  s.at none (s.now + 1 + k % bound) phDevice ev

/-! ## Firmware images (R132, R133) -/

def allZero (bs : List Byte) : Bool := bs.all (· == 0)

/-- The layout of a target-1 payload: entry starts 0x00 or 0x80 to 0xFF, then 16 zero bytes, then 128 micro-words. -/
def unitPayloadOk (p : List Byte) : Bool :=
  p.length == 2304 && (bytesAt p 0 240).all (fun b => b == 0 || decide (0x80 ≤ b.toNat)) && allZero (bytesAt p 240 16)

/-- The layout of an image of a target with LENGTH as given. -/
def imageLayoutOk (target len : Nat) (bs : List Byte) : Bool :=
  decide (0x1000 ≤ len) && numAt bs 0 4 == 0x5746584B && numAt bs 4 2 == target
    && len == 0x1000 + numAt bs 8 4 && allZero (bytesAt bs 0xEC4 316)
    && (target != 1 || unitPayloadOk (bytesAt bs 0x1000 (numAt bs 8 4)))

/-- What R133 makes of an image: 0 accepted, 3 BADFMT, 1 BADSIG, 2 ROLLBACK, tested in that order (log entry 13). -/
def imageResult (minSvn target len : Nat) (bs : List Byte) : Nat :=
  if !imageLayoutOk target len bs then 3
  else
    let key := bytesAt bs 0x30 1312
    if Config.sha3 key != Config.rootKeyHash || Config.sha3 (bytesAt bs 0x1000 (numAt bs 8 4)) != bytesAt bs 0x10 32
      || !Config.mlDsaVerify key (Config.sha3 (bytesAt bs 0 0x550)) (bytesAt bs 0x550 2420) then 1
    else if numAt bs 6 2 < minSvn then 2
    else 0

/-! ## Bring-up (R136, R137) -/

def State.bringupFailed (s : State) (code : Nat) : State :=
  let s := { s with hport := { s.hport with stage := 15, errcode := code } }
  let q := s.hport.queues.rd Queue.idle 0
  if q.en && q.head != q.tail && !q.err then s.at none s.now phDevice (.slotRead 0) else s

/-- BOOT_IMAGE_CHECK: stage 0 ends; then, in stage 1, the stored image is checked and runs, or bring-up fails. -/
def execBootImageCheck (s : State) : Out3 :=
  let h := s.hport
  if !s.pkg.powered then .next s
  else if h.stage = 0 then .next ({ s with hport := { h with stage := 1 } }.within 100000000 .bootImageCheck)
  else if h.stage ≠ 1 then .next s
  else
    let r := imageResult h.minSvn 0 h.fwStore.length h.fwStore
    if r ≠ 0 then .next (s.bringupFailed r)
    else
      .next { s with hport := { h with stage := 2, fwDigest := bytesAt h.fwStore 0x10 32 } }

/-! ### The Scorebook's map (R41 to R43) -/

/-- A map entry as it reads: a row or column entry with nothing recorded holds 0x1FF in F0 to F3. -/
def Scorebook.entry (b : Scorebook) (i : Nat) : W64 :=
  b.map.rd (if 0x1000 ≤ i && i < 0x1200 then 0xFFFFFFFFF else 0) i

def insertNat (x : Nat) : List Nat → List Nat
  | [] => [x]
  | y :: ys => if x < y then x :: y :: ys else y :: insertNat x ys

/-- The failing numbers that an entry lists. -/
def failList (e : Nat) : List Nat := (List.range (min 4 (fld e 36 3))).map (fun k => fld e (9 * k) 9)

/-- The row or column entry with the given failing numbers (the lowest four of them show), count and RETIRED. -/
def failEntry (l : List Nat) (retired : Bool) : Nat :=
  let f (k : Nat) : Nat := (l[k]?).getD 0x1FF
  f 0 + 2 ^ 9 * f 1 + 2 ^ 18 * f 2 + 2 ^ 27 * f 3 + 2 ^ 36 * (if 4 < l.length then 7 else l.length) + 2 ^ 39 * b2n retired

/-- The map records a tile as retired (R42). -/
def Scorebook.retired (b : Scorebook) (t : Nat) : Bool := bitAt (b.entry (0x1000 + 2 * t)).toNat 39 || bitAt (b.entry (0x1001 + 2 * t)).toNat 39

/-- A tile is retired, and counted once in the life of the package (R34, R40, R42). -/
def State.retire (s : State) (t : Nat) : State :=
  if s.sb.retired t then s.modTile t (fun x => { x with retired := true })
  else
    let i := 0x1000 + 2 * t
    let set (s : State) (i : Nat) : State := s.sbMap i (setFld (s.sb.entry i).toNat 39 1 1)
    (set (set (s.modTile t (fun x => { x with retired := true })) i) (i + 1)).degrade 0x032 1

/-- A physical row or column of a tile fails: it is recorded, and the fifth retires the tile (R34, R42).  Of more than four failing
numbers the entry keeps the lowest four. -/
def State.lineFails (s : State) (t : Nat) (col : Bool) (n : Nat) : State :=
  let i := 0x1000 + 2 * t + b2n col
  let e := (s.sb.entry i).toNat
  let l := failList e
  if l.contains n then s
  else
    let s := s.sbMap i (failEntry (insertNat n l) (bitAt e 39))
    if l.length < 4 then s.degrade (0x030 + b2n col) 1 else s.retire t

/-- The k-th physical row or column that an entry does not list: what logical number k uses (R35). -/
def spareMap (bad : List Nat) (k : Nat) : Nat := (((List.range 260).filter (fun n => !bad.contains n))[k]?).getD 0

/-- What one finding of the self-test does; none stops bring-up but an I/O-die structure or an L2 slice (R34, R137). -/
def State.find (s : State) (f : Finding) : State :=
  match f with
  | .ioDie => s
  | .l2Slice => s
  | .tile t => s.retire t.toNat
  | .row t r => s.lineFails t.toNat false r
  | .column t c => s.lineFails t.toNat true c
  | .bank p b => s.bankFails p.toNat b.toNat

def Finding.fatal : Finding → Bool
  | .ioDie => true
  | .l2Slice => true
  | _ => false

/-- SELF_TEST (stage 2). -/
def execSelfTest (fs : List Finding) (s : State) : Out3 :=
  if !s.pkg.powered || s.hport.stage != 2 then .next s
  else
    let s := fs.foldl State.find s
    .next (if fs.any Finding.fatal then s.bringupFailed 4 else { s with hport := { s.hport with stage := 3 } })

/-- Banks recorded as failing are mapped out, and their pseudo-channel withdrawn (R34, R37, R43). -/
def State.mapOut (s : State) (pch : Nat) : State :=
  let bits := (s.seqr pch).badBanks.foldl (fun a b => Nat.lor a (2 ^ b)) 0
  if bits = 0 then s
  else
    let n := ((List.range 16).filter (fun b => bitAt bits b && !bitAt (s.sb.entry (0x2000 + pch)).toNat b)).length
    let first := !bitAt (s.sb.entry (0x2000 + pch)).toNat 16
    let s := s.sbMap (0x2000 + pch) (Nat.lor (Nat.lor (s.sb.entry (0x2000 + pch)).toNat bits) (2 ^ 16))
    ((s.degrade 0x033 n).degrade 0x034 (b2n first)).modSeqr pch (fun q => { q with badBanks := [] })

/-- Withdrawn pseudo-channels leave translation at the first reset after their withdrawal (R37, R292). -/
def State.withdrawMapped (s : State) : State :=
  (List.range 512).foldl (fun s p =>
    if bitAt (s.sb.entry (0x2000 + p)).toNat 16 then s.modSeqr p (fun q => { q with withdrawn := true, framesOut := true }) else s) s

/-- BRINGUP_CONFIG (stage 3): retirements and mapped-out banks; the built-in micro-words and the system code store are loaded; the
FW fields are written, of the image header's BUILD the low 16 bits (DESIGN CHOICE, log entry 98).  The spare remap of R35 changes
no result. -/
def execBringupConfig (fw : FwSupply) (s : State) : Out3 :=
  if !s.pkg.powered || s.hport.stage != 3 then .next s
  else
    let s := (List.range 256).foldl (fun s t => s.modTile t (fun x => { x with
      retired := x.retired || s.sb.retired t,
      sysCode := (numbered 0 (fw.sysCode.take 8192)).foldl (fun m p => m.wr 0 p.1 p.2) [],
      sysDict := Mem.setBytes [] 0 (fw.sysDict.take 24576), sysLoaded := !fw.sysCode.isEmpty })) s
    let s := ((List.range 512).foldl State.mapOut s).withdrawMapped
    .next { s with
      micro := (numbered 0 (fw.micro.take 128)).foldl (fun m p => m.wr 0 p.1 p.2) [],
      starts := Mem.setBytes [] 0 (fw.starts.take 8),
      col := { s.col with budget := 2400 },
      hport := { s.hport with
        stage := 4, svn := numAt s.hport.fwStore 6 2, build := numAt s.hport.fwStore 12 4 % 65536 } }

/-! ## Temperature and supply (R18 to R21) -/

/-- Fields of the package that run freeze for a thermal trip. -/
def State.tripFreeze (s : State) : State :=
  (s.fields.map (·.1)).foldl (fun s f =>
    if (s.field f).state == .running then (s.requestFreeze f false).modField f (fun x => { x with tripped := true }) else s) s

/-- Fields that the trip froze resume. -/
def State.tripResume (s : State) : State :=
  (s.fields.map (·.1)).foldl (fun s f => if (s.field f).tripped then s.requestResume f else s) s

/-- Sensors that read something else from now on, by the numbers of PkgRegs. -/
def PkgRegs.withSensors (p : PkgRegs) (l : List (Nat × Int)) : PkgRegs :=
  { p with sensors := l.foldl (fun t e => t.wr 0 e.1 e.2) p.sensors }

/-- The highest reading of the package's 18 sensors: four on each compute die and one on each I/O die (R18). -/
def PkgRegs.hottest (p : PkgRegs) : Int := (List.range 18).foldl (fun m k => max m (p.sensors.rd 0 k)) (p.sensors.rd 0 0)

/-- What a package temperature brings about (R19). -/
def State.heated (s : State) (deg : Int) : State :=
  let was := s.pkg.temp
  let s := { s with pkg := { s.pkg with temp := deg } }
  let s := if decide (was < 100) && decide (100 ≤ deg) then
      { s.setThwarn.bump 0x070 1 with col := { s.col with halved := true } }
    else s
  let s := if decide (was < 110) && decide (110 ≤ deg) then (s.setThtrip.bump 0x071 1).tripFreeze else s
  if 95 ≤ deg then s
  else
    let s := { s with col := { s.col with halved := false }, decide_ := s.decide_ || s.col.halved }
    if s.pkg.thtrip then { s with pkg := { s.pkg with thtrip := false } }.tripResume else s

/-- TEMP_SAMPLE (R18, R19): once every 1 ms; `changed` are the readings that change just as the sensors are read (log entry 2). -/
def execTempSample (changed : List (Nat × Int)) (s : State) : Out3 :=
  .next (if !s.pkg.powered then s
    else
      let s := { s with pkg := s.pkg.withSensors changed }
      (s.heated s.pkg.hottest).at none (s.now + 2000000) phDevice (.tempSample []))

/-- DROOP_WARNING (R20): results are unaffected. -/
def execDroopWarning (_die : BitVec 2) (s : State) : Out3 := .next (if s.pkg.powered then s.setDroop.bump 0x040 1 else s)

/-- DROOP_FAILURE (R20, R321). -/
def execDroopFailure (die : BitVec 2) (s : State) : Out3 :=
  if !s.pkg.powered then .next s
  else
    let s := s.setDroop.bump 0x041 1
    .next ((s.fieldsOn (fun t => dieOfTile t == die.toNat)).foldl
      (fun s f => (s.machineField f (machine 2 0 0)).machineCheck 0x0B 0xFFFF f 0) s)

/-! ## Errors in structures (R34, R131) -/

/-- One power-on hour in device cycles. -/
def hourCycles : Nat := 7200000000000

/-- A second uncorrectable error in one structure of a tile within one hour retires the tile. -/
def State.structureError (s : State) (cls t : Nat) : State :=
  let again := s.pkg.errs.any (fun e => e.1 == cls && e.2.1 == t && decide (s.now < e.2.2 + hourCycles))
  let s := { s with pkg := { s.pkg with errs := (cls, t, s.now) :: s.pkg.errs } }
  if again then s.retire t else s

/-- A tile whose array failed in use takes no new placement before the next reset (R34). -/
def State.withhold (s : State) (t : Nat) (col : Bool) (n : Nat) : State :=
  s.modTile t (fun x => if col then { x with badCols := n :: x.badCols } else { x with badRows := n :: x.badRows })

/-- Report a MACHINE trap to the context that met an error, and the field the record names. -/
def State.machineWho (s : State) (who : Option (BitVec 8 × BitVec 2)) (tr : Trap) : State :=
  match who with
  | none => s
  | some (t, h) => s.modCtx t.toNat h.toNat (fun c => if c.field.isSome then c.report s.now 0 none tr else c)

def State.whoField (s : State) (who : Option (BitVec 8 × BitVec 2)) : Nat :=
  (who.map (fun w => (s.ctx w.1.toNat w.2.toNat).field.getD 0xFFFF)).getD 0xFFFF

/-- UNCORRECTABLE_ERROR (R34, R131, R321): MACHINE 0x01 in the fields that use the tile, or in the context whose access met the
error; a machine-check record; and what the failure degrades. -/
def execUncorrectableError (e : ErrSite) (s : State) : Out3 :=
  let cls := e.cls.toNat
  let t := e.tile.toNat
  let a := e.addr.toNat
  let tr := machine 1 a cls
  if !s.pkg.powered || cls = 0 || 9 < cls then .next s
  else if cls ≤ 6 then
    let fs := s.fieldsOn (· == t)
    let s := fs.foldl (fun s f => s.machineField f tr) s
    let s := s.machineCheck cls t (fs.headD 0xFFFF) a
    .next (if cls = 1 then (s.lineFails t e.line.1 e.line.2).withhold t e.line.1 e.line.2
      else s.structureError (cls + 16 * b2n e.code) t)
  else
    let f := s.whoField e.who
    if cls = 9 then .next (((s.machineWho e.who (machine 6 a 0)).bankFails e.pch.toNat e.bank.toNat).machineCheck 9 0xFFFF f a)
    else
      let s := (s.machineWho e.who tr).machineCheck cls 0xFFFF f a
      .next (if cls = 8 then s.bankFails e.pch.toNat e.bank.toNat else s)

/-- CORRECTED_ERROR (R34, R40): one more than 256 in an hour and an HBM4 bank fails. -/
def execCorrectedError (structure_ : Nat) (pch : BitVec 9) (bank : BitVec 4) (s : State) : Out3 :=
  if !s.pkg.powered || 10 < structure_ then .next s
  else
    let s := s.bump (0x020 + structure_) 1
    if structure_ ≠ 8 then .next s
    else
      let k := 16 * pch.toNat + bank.toNat
      let cs := (k, s.now) :: s.pkg.corr.filter (fun e => decide (s.now < e.2 + hourCycles))
      let s := { s with pkg := { s.pkg with corr := cs } }
      .next (if 256 < (cs.filter (fun e => e.1 == k)).length then s.bankFails pch.toNat bank.toNat else s)

/-! ## The Col's windows (R29, R490) -/

/-- COL_WINDOW_START: every open session is charged for the window that begins, before anything of its first cycle opens or closes
one.  Where several sessions of a field meet grants that lack units for all, the lowest pseudo-channel is charged first, and while the
time base is down no window begins (DESIGN CHOICE, log entry 114).  Grants whose last window has ended serve no
more; they stay listed as long as a request may still test the windows they covered (R27). -/
def execColWindowStart (s : State) : Out3 :=
  if !s.torus.timed then .next s
  else
    let s := (s.seqrs.filter (fun e => e.2.session.isSome)).foldl (fun s e => s.chargeSession e.1) s
    let w := windowOf s.global
    let s := { s with
      col := { s.col with grants := s.col.grants.filter (fun g => decide (w ≤ g.last + 400)) },
      decide_ := s.decide_ || s.col.grants.any (fun g => g.last + 1 == w) }
    .next (s.at none (s.now + 2000) phWindow .colWindowStart)

/-! ## The Scorebook (R38 to R45) -/

/-- The shadows are committed (R39). -/
def Scorebook.commit (b : Scorebook) : Scorebook :=
  { b with counters := b.shadow.foldl (fun c e => c.wr 0 e.1 (.ofNat 64 (b.value e.1))) b.counters, shadow := [] }

def execScorebookCommit (s : State) : Out3 :=
  if !s.pkg.powered then .next s
  else .next ({ s with sb := s.sb.commit }.at none (s.now + 120000000000) phDevice .scorebookCommit)

/-- The bin of a package temperature (R40). -/
def tempBin (deg : Int) : Nat := if deg < 0 then 0 else if 120 ≤ deg then 13 else deg.toNat / 10 + 1

/-- SCOREBOOK_SECOND_TICK. -/
def execScorebookSecondTick (s : State) : Out3 :=
  if !s.pkg.powered then .next s
  else .next (((s.bump 0x000 1).bump (0x010 + tempBin s.pkg.temp) 1).at none (s.now + 2000000000) phDevice .scorebookSecondTick)

/-- The counter indices of R40; the others read zero. -/
def counterListed (i : Nat) : Bool :=
  i == 0 || i == 1 || (decide (0x10 ≤ i) && decide (i ≤ 0x1D)) || (decide (0x20 ≤ i) && decide (i ≤ 0x2A))
    || (decide (0x30 ≤ i) && decide (i ≤ 0x35)) || i == 0x40 || i == 0x41 || (decide (0x50 ≤ i) && decide (i ≤ 0x55))
    || (decide (0x58 ≤ i) && decide (i ≤ 0x5D)) || i == 0x60 || i == 0x70 || i == 0x71

/-- The entry at an index of the common space (R40, R41). -/
def Scorebook.at_ (b : Scorebook) (i : Nat) : W64 :=
  if i < 0x80 then (if counterListed i then .ofNat 64 (b.value i) else 0)
  else if (0x1000 ≤ i && i < 0x1200) || (0x2000 ≤ i && i < 0x2200) || (0x3000 ≤ i && i < 0x3006) then b.entry i
  else 0

/-- An entry as it reads: the fields of a row or column entry are FW fields, and read zero until bring-up stage 3 (R10, R42), also
where an earlier reset has recorded a failure there (DESIGN CHOICE, log entry 94). -/
def State.sbAt (s : State) (i : Nat) : W64 := if 0x1000 ≤ i && i < 0x1200 && !s.fwWritten then 0 else s.sb.at_ i

/-- SB_DATALO_READ (R44): all 64 bits are latched at once. -/
def execSbDataloRead (s : State) : Out3 :=
  if !s.bar0Open then .next { s with hostRead := leBytes 4 0 }
  else
    let v := s.sbAt s.sb.index
    .next { s with sb := { s.sb with latch := v }, hostRead := leBytes 4 v.toNat }

/-- The bytes of a snapshot taken now (R45): every counter and map entry as the Scorebook holds it.  In bring-up stages 1 and 2 it holds
entries that SB_DATALO does not show yet (DESIGN CHOICE, log entry 94). -/
def State.snapshot (s : State) : List Byte :=
  let b := s.sb
  let entries (a n : Nat) : List Byte := (List.range n).flatMap (fun k => leBytes 8 (b.at_ (a + k)).toNat)
  let body := leBytes 4 0x4253584B ++ leBytes 2 1 ++ leBytes 2 0 ++ bytesAt s.hport.serial 0 16
    ++ (List.range 8).flatMap (fun k => leBytes 4 (b.nonce.rd 0 k).toNat) ++ leBytes 8 (b.at_ 0).toNat
    ++ leBytes 8 (b.snapSeq.toNat + 1) ++ entries 0 128 ++ entries 0x1000 512 ++ entries 0x2000 512 ++ entries 0x3000 6
  let digest := bytesAt (Config.sha3 body) 0 32
  body ++ digest ++ bytesAt (Config.mlDsaSign digest) 0 2420

/-- SB_SNAP: a snapshot is captured, in the cycle of the write (DESIGN CHOICE, log entry 99: R45 names no cycle of its 50 ms), or
refused while one is being built (R44, R45). -/
def execSbSnap (s : State) : Out3 :=
  if !s.bar0Open || s.hport.shutdown then .next s
  else if bitAt s.sb.stat 0 then .next ({ s with sb := { s.sb with stat := Nat.lor s.sb.stat 4 } }.markSet 0x120010 2)
  else
    let s := { s with sb := { s.sb with snap := s.snapshot, snapSeq := s.sb.snapSeq + 1, stat := Nat.lor s.sb.stat 1 } }
    .next (s.within 100000000 .snapshotDone)

/-- SNAPSHOT_DONE: BUSY falls, DONE is set. -/
def execSnapshotDone (s : State) : Out3 :=
  if !bitAt s.sb.stat 0 then .next s
  else .next ({ s with sb := { s.sb with stat := Nat.lor (s.sb.stat - 1) 2, snapLen := s.sb.snap.length } }.markSet 0x120010 1)

/-! ## Orderly shutdown (R113) -/

/-- DEV_SHUTDOWN: the queues stop, every placed field freezes, and the Scorebook is committed. -/
def execDevShutdown (s : State) : Out3 :=
  if !s.bar0Open || s.hport.shutdown then .next s
  else
    let s := { s with hport := { s.hport with shutdown := true } }
    let s := (s.fields.map (·.1)).foldl (fun s f => s.requestFreeze f false) s
    .next ({ s with sb := s.sb.commit }.within 199000000 .orderlyShutdownComplete)

/-- A field that runs, is about to freeze, or has a start or a resume fixed: SHUTDOWN waits until it is frozen. -/
def Field.unsettled (f : Field) : Bool := f.ticking || f.state == .freezing || f.resumeG.isSome

/-- ORDERLY_SHUTDOWN_COMPLETE: OFFOK once every field is frozen.  No start and no resume is fixed after SHUTDOWN, so the wait for
those that were ends within its 100 ms. -/
def execOrderlyShutdownComplete (s : State) : Out3 :=
  if !s.hport.shutdown || s.hport.offok then .next s
  else if s.fields.any (fun e => e.2.unsettled) then .next (s.at none (s.now + 1) phDevice .orderlyShutdownComplete)
  else .next { s with hport := { s.hport with offok := true }, sb := s.sb.commit }

end Sys2Proof.Machine
end

