-- ==== Sys2Proof/Machine/Host.lean ====
section
/-! DEFINITION. The host port (04_host.md): BAR0, the work queues and their packets, events, COPY, the staging aperture, firmware
loads, identity and attestation. -/

namespace Sys2Proof

/-- Field at byte a, n bytes wide, of a packet. -/
def Pkt.num (p : Pkt) (a n : Nat) : Nat := numAt p.bytes a n

end Sys2Proof

namespace Sys2Proof.Machine

open Sys2Proof

/-! ## Packets (R117, R122, R123) -/

/-- The body bytes that a type defines. -/
def definedBytes (type : Nat) : List (Nat × Nat) :=
  match type with
  | 1 => [(4, 7), (12, 24)]
  | 2 => [(4, 2)]
  | 3 => [(4, 2)]
  | 4 => [(4, 2)]
  | 5 => [(4, 4)]
  | 6 => [(4, 3), (8, 4)]
  | 7 => [(4, 2), (8, 4)]
  | 8 => [(4, 2), (8, 20)]
  | 10 => [(4, 1), (8, 8)]
  | 11 => [(4, 1), (6, 34)]
  | _ => []

/-- Every body byte that the type does not define is zero, and so are FLAGS [7:1]. -/
def pktClean (p : Pkt) : Bool :=
  decide (p.num 1 1 ≤ 1) && (List.range 56).all (fun k =>
    (definedBytes (pktType p)).any (fun r => decide (r.1 ≤ k + 4) && decide (k + 4 < r.1 + r.2)) || p.num (k + 4) 1 == 0)

/-- An event field holds an event number or none. -/
def eventOk (e : Nat) : Bool := decide (e ≤ 4094) || e == 0xFFFF

/-- The field that a LAUNCH creates: live from its taking (R138). -/
def launchField (p : Pkt) (order : Nat) : Field :=
  { Field.blank with
    num := p.num 4 2, span := p.num 6 2, w := p.num 8 1 % 16 + 1, h := p.num 8 1 / 16 + 1, ctxs := p.num 9 1 % 4 + 1,
    ports := p.num 10 1, waitEv := p.num 12 2, doneEv := p.num 14 2, waitVal := .ofNat 32 (p.num 16 4), image := p.num 20 8,
    arg := .ofNat 64 (p.num 28 8), queue := p.q, seq := p.seq, launch := p.id, order := order }

/-- What the LAUNCHes of a group's members must agree in (R157). -/
def Field.shape (f : Field) : Nat × Nat × Nat × Nat := (f.w, f.h, f.span, f.ports)

def Field.small (f : Field) : Bool := decide (f.w ≤ 4) && decide (f.h ≤ 4)

/-- A LAUNCH that breaks R123, R138, R139 or R157. -/
def State.badLaunch (s : State) (p : Pkt) : Bool :=
  let f := launchField p 0
  !eventOk f.waitEv || !eventOk f.doneEv || decide (4 ≤ p.num 9 1) || decide (64 ≤ f.ports) || f.image % 128 != 0
    || f.span == 1 || decide (1024 < f.span) || s.live f.num || (!f.small && (f.w % 4 != 0 || f.h % 4 != 0))
    || (match s.partner f.num with
      | none => false
      | some q => decide (2 < f.ctxs) || (s.shapes.find q).any (· != f.shape))

/-- A PAIR that R157 calls BADPKT. -/
def State.badPair (s : State) (p : Pkt) : Bool :=
  let a := p.num 4 2
  let b := p.num 6 2
  a == b || s.live a || s.live b || s.grouped a || s.grouped b

/-- The error of a sealed packet, 0 for none (R121): every condition is decided when the packet is taken.  An FWLOAD whose image passes
the end of BAR4 is none, the model's choice (log entry 116). -/
def State.packetError (s : State) (p : Pkt) : Nat :=
  let ty := pktType p
  if ty = 0 || 11 < ty || (s.hport.stage == 15 && !(ty == 10 && p.num 4 1 == 0)) then 2
  else if p.q ≠ 0 && (ty == 4 || ty == 5 || ty == 10 || ty == 11) then 4
  else if !pktClean p then 5
  else
    let bad : Bool :=
      match ty with
      | 1 => s.badLaunch p
      | 5 => s.badPair p
      | 6 => !eventOk (p.num 4 2) || decide (1 < p.num 6 1)
      | 7 => !eventOk (p.num 4 2)
      | 8 => !eventOk (p.num 4 2) || p.num 24 4 == 0
      | 10 => decide (1 < p.num 4 1)
      | _ => false
    if bad then 5 else 0

/-! ## Taking packets (R118 to R121) -/

/-- The queue enters error (R121): H stays at the packet in error. -/
def State.queueError (s : State) (q code : Nat) : State :=
  let x := s.queue q
  if x.err then s
  else (s.modQueue q (fun x => { x with err := true, code := code, errSeq := x.head, firstRead := none })).msix 2

/-- The device reads the queue (R119). -/
def State.reads (s : State) (q : Nat) : Bool :=
  let x := s.queue q
  x.en && x.head != x.tail && !x.err && !s.hport.shutdown && (s.pkg.ready || (q == 0 && s.hport.stage == 15))

/-- A read of the queue's next slot is due, unless one is already. -/
def State.nextRead (s : State) (q : Nat) : State :=
  if !s.reads q || s.agenda.any (fun d => d.ev == Instr.slotRead (.ofNat 10 q)) then s
  else s.later s.nextId 1 (.slotRead (.ofNat 10 q))

/-- A pair is recorded as an alternation group (R157). -/
def State.recordPair (s : State) (a b : Nat) : State :=
  if s.grouped a || s.grouped b then s else { s with groups := s.groups ++ [(a, b)] }

/-- What the taking of a packet itself does: a LAUNCH's field is live, and a PAIR's group exists. -/
def State.taken (s : State) (p : Pkt) : State :=
  match pktType p with
  | 1 =>
    let f := launchField p s.orders
    { s with
      fields := s.fields.insert f.num f, orders := s.orders + 1, finished := s.finished.filter (· != f.num),
      shapes := if s.grouped f.num then s.shapes.insert f.num f.shape else s.shapes }
  | 5 => s.recordPair (p.num 4 2) (p.num 6 2)
  | _ => s

/-- The slot at H of a queue (R115). -/
def State.slotPkt (s : State) (q : Nat) : Pkt :=
  let h := (s.queue q).head.toNat
  ⟨q, h, s.hport.qmem.bytes (16384 * q + 64 * (h % 256)) 64, s.nextId, false⟩

/-- SLOT_READ (R119): the packet is taken when SEQ and SEAL check; else the slot is read again within 250 ns. -/
def execSlotRead (q : BitVec 10) (s : State) : Out3 :=
  let n := q.toNat
  if !s.reads n then .next s
  else
    let p := s.slotPkt n
    if p.num 2 2 == p.seq && sealed p.bytes then
      let e := s.packetError p
      if e ≠ 0 then .next (s.queueError n e)
      else
        let s := (s.taken p).modQueue n (fun x => { x with head := x.head + 1, firstRead := none, taken := x.taken ++ [p] })
        let s := { s with nextId := s.nextId + 1 }
        .next ((s.at none s.now phDevice (.packetStart q)).nextRead n)
    else
      let s := match (s.queue n).firstRead with
        | some _ => s
        | none => (s.modQueue n (fun x => { x with firstRead := some s.now })).at none (s.now + 4000) phBound (.sealTimeout q)
      .next (s.within 500 (.slotRead q))

/-- SEAL_TIMEOUT (R119). -/
def execSealTimeout (q : BitVec 10) (s : State) : Out3 :=
  .next (match (s.queue q.toNat).firstRead with
    | some t => if t + 4000 ≤ s.now && s.reads q.toNat then s.queueError q.toNat 1 else s
    | none => s)

/-- Q_KICK (R120). -/
def State.kick (s : State) (q tail : Nat) : State :=
  let x := s.queue q
  let d := (tail + 65536 - x.head.toNat) % 65536
  if 256 < d then s.queueError q 3
  else if d ≤ (x.tail - x.head).toNat then s
  else (s.modQueue q (fun x => { x with tail := .ofNat 16 tail })).nextRead q

def execQKick (q : BitVec 10) (v : W32) (s : State) : Out3 :=
  .next (if s.bar0Writes then s.kick q.toNat (v.toNat % 65536) else s)

/-- Q_RESET (R116). -/
def State.resetQueue (s : State) (q head : Nat) : State :=
  s.modQueue q (fun x => if x.en then x else
    { x with head := .ofNat 16 head, tail := .ofNat 16 head, err := false, firstRead := none })

def execQReset (q : BitVec 10) (v : W32) (s : State) : Out3 :=
  .next (if s.bar0Writes then s.resetQueue q.toNat (v.toNat % 65536) else s)

/-- Q_CTL (R116, R143): the scheduler decides anew. -/
def State.writeQCtl (s : State) (q v : Nat) : State :=
  let s := s.modQueue q (fun x => { x with
    en := bitAt v 0, prio := fld v 1 3, weight := fld v 4 8, firstRead := if bitAt v 0 then x.firstRead else none })
  ({ s with decide_ := true }).nextRead q

def execQCtlWrite (q : BitVec 10) (v : W32) (s : State) : Out3 :=
  .next (if s.bar0Writes then s.writeQCtl q.toNat v.toNat else s)

/-! ## Starting packets (R118, R122) -/

/-- A RESUME waits while its field is being frozen or evicted, or, for a member of a group, until the group is restored (R142,
R491). -/
def State.resumeWaits (s : State) (f : Nat) : Bool :=
  let x := s.field f
  s.live f && (x.state == .freezing || x.state == .evicting
    || (s.grouped f && (x.state == .evicted || x.state == .restoring)))

/-- A RESUME at the head of a queue's taken packets that waits is marked as having waited (R142). -/
def State.markWaits (s : State) : State :=
  { s with hport := { s.hport with queues := s.hport.queues.map (fun e => (e.1, { e.2 with taken :=
      match e.2.taken with
      | [] => []
      | p :: ps => (if pktType p == 3 && s.resumeWaits (p.num 4 2) then { p with waited := true } else p) :: ps })) } }

/-- The packet's own conditions hold. -/
def State.startable (s : State) (p : Pkt) : Bool :=
  match pktType p with
  | 1 => s.evReached (p.num 12 2) (.ofNat 32 (p.num 16 4))
  | 3 => !s.resumeWaits (p.num 4 2)
  | 10 => !s.hport.mbBusy
  | 11 => !s.hport.mbBusy
  | _ => true

/-- The next packet of a queue may start. -/
def State.mayStart (s : State) (q : Nat) : Option Pkt :=
  let x := s.queue q
  if s.hport.shutdown || x.started.any (fun p => pktType p == 9) then none
  else match x.taken with
    | [] => none
    | p :: _ => if s.startable p then some p else none

/-- The step that a packet's start is (R122). -/
def packetEvent (p : Pkt) : Instr :=
  match pktType p with
  | 1 => .launch
  | 2 => .park
  | 3 => .resume
  | 4 => .evict
  | 5 => .pair
  | 6 => if p.num 6 1 = 0 then .eventSetWrite else .eventSetAdd
  | 7 => .eventWait
  | 8 => .copy
  | 9 => .fencePacket
  | 10 => if p.num 4 1 = 0 then .fwloadDevice else .fwloadBankUnit
  | _ => if p.num 4 1 = 0 then .queryDevice else if p.num 4 1 = 1 then .queryAttestation else .queryFieldState

/-- Happens before anything else of this cycle's device updates. -/
def State.atOnce (s : State) (ev : Instr) : State :=
  { s with agenda := ⟨none, s.now, phDevice, 0, ev, 0⟩ :: s.agenda }

/-- PACKET_START: the packet leaves the taken ones, and its own step follows at once. -/
def execPacketStart (q : BitVec 10) (s : State) : Out3 :=
  match s.mayStart q.toNat with
  | none => .next s
  | some p =>
    let s := s.modQueue q.toNat (fun x => { x with taken := x.taken.tail, started := x.started ++ [p] })
    .next (({ s with pkt := p }.atOnce (packetEvent p)).at none s.now phDevice (.packetStart q))

/-- The packet whose step this is completes. -/
def State.pktDone (s : State) : State := s.packetDone s.pkt.q s.pkt.id

/-! ## Events (R126) -/

def State.setEv (s : State) (e : Nat) (v : W32) : State :=
  if 4096 ≤ e then s else { s with hport := { s.hport with ev := s.hport.ev.wr 0 e v } }

def execEvHostWrite (n : BitVec 12) (v : W32) (s : State) : Out3 := .next (if s.bar0Writes then s.setEv n.toNat v else s)

def execEventSetWrite (s : State) : Out3 :=
  .next ((s.setEv (s.pkt.num 4 2) (.ofNat 32 (s.pkt.num 8 4))).pktDone)

def execEventSetAdd (s : State) : Out3 := .next ((s.evAdd (s.pkt.num 4 2) (s.pkt.num 8 4)).pktDone)

/-- The condition of an EVENT-WAIT. -/
def State.waitHolds (s : State) (p : Pkt) : Bool := s.evReached (p.num 4 2) (.ofNat 32 (p.num 8 4))

/-- EVENT_WAIT: completes at once when its condition holds. -/
def execEventWait (s : State) : Out3 := .next (if s.waitHolds s.pkt then s.pktDone else s)

/-- Started packets of every queue that satisfy a test. -/
def State.startedWhere (s : State) (t : Pkt → Bool) : List Pkt :=
  s.hport.queues.flatMap (fun e => e.2.started.filter t)

/-- EVENT_WAIT_MET: every EVENT-WAIT whose condition holds completes. -/
def execEventWaitMet (s : State) : Out3 :=
  .next ((s.startedWhere (fun p => pktType p == 7 && s.waitHolds p)).foldl (fun s p => s.packetDone p.q p.id) s)

/-- FENCE packets that are the oldest packet of their queue still to complete. -/
def State.readyFences (s : State) : List Pkt :=
  s.hport.queues.filterMap (fun e => e.2.started.head?.filter (fun p => pktType p == 9))

/-- FENCE_PACKET (R122): a FENCE completes once every earlier packet of its queue has. -/
def execFencePacket (s : State) : Out3 := .next (s.readyFences.foldl (fun s p => s.packetDone p.q p.id) s)

/-- PAIR (R157). -/
def execPair (s : State) : Out3 := .next ((s.recordPair (s.pkt.num 4 2) (s.pkt.num 6 2)).pktDone)

/-- What the end of a cycle finds ready in the queues happens in the next cycle; a RESUME that waits is marked. -/
def State.hostScan (s : State) : State :=
  let next (s : State) (ev : Instr) : State := s.at none (s.now + 1) phDevice ev
  let s := s.markWaits
  let s := (s.hport.queues.map (·.1)).foldl (fun s q =>
    if (s.mayStart q).isSome then next s (.packetStart (.ofNat 10 q)) else s) s
  let s := if (s.startedWhere (fun p => pktType p == 7 && s.waitHolds p)).isEmpty then s else next s .eventWaitMet
  let s := if s.readyFences.isEmpty then s else next s .fencePacket
  if s.decide_ then next s .schedulerDecision else s

/-! ## COPY (R127) -/

/-- The tile whose copy engine serves a COPY: the lowest unretired tile of the die of DST, else of the package's lowest other
die. -/
def State.copyTile (s : State) (dst : Nat) : Nat :=
  let ts := (List.range 256).filter (fun t => !(s.tile t).retired)
  match ts.find? (fun t => dieOfTile t == vDie dst) with
  | some t => t
  | none => ((List.range 4).findSome? (fun d => ts.find? (fun t => dieOfTile t == d))).getD 0

/-- COPY: the command reaches the engine; it belongs to no field. -/
def execCopy (s : State) : Out3 :=
  let p := s.pkt
  let c : Cmd :=
    { id := s.nextId, seq := s.nextId, tile := s.copyTile (p.num 16 8), hw := 0, field := 0x10000, rel := 0, pc := 0, ins := .copy,
      sys := false, svc := false, set := .user, ev := none, addr := 0, pitch := 0,
      vals := [p.num 8 8, p.num 16 8, p.num 24 4, 1, 1, 0, 0, 0, 0, p.q, p.seq, p.num 4 2, p.id].map (.ofNat 64),
      views := [], bytes := [], cells := [], sysw := false, scope := none, xl := [], made := false, flags := [], wait := [],
      fset := [], maps := [], prog := 0, status := 0, lowest := none, viol := none }
  .next (s.async c (fun id => .copyComplete id []))

/-- One chunk of a COPY: an absent or protected source byte reads zero, such a destination byte is dropped.  It waits for writes of
BAR4 to its source that reached the device before it (R128). -/
def State.packetChunk (s : State) (c : Cmd) (remote : Table Byte) : Option (Cmd × State) :=
  let sh := c.shape
  let ps := (List.range (min 128 (sh.total - 128 * c.prog))).map (fun k => sh.at (128 * c.prog + k))
  let (sl, s) := s.xlLines .packet false (linesOfAddrs (ps.map (·.1)))
  let (dl, s) := s.xlLines .packet true (linesOfAddrs (ps.map (·.2)))
  if sl.missing remote || s.linesBusy sl false || s.linesBusy dl true || s.stagePending (sl.map (·.1)) then none
  else
    let sl := sl.settle remote
    let c := (c.note sl (ps.map (·.1))).note dl (ps.map (·.2))
    let cells := ps.map (fun p => (p.2, (s.kByte sl remote p.1).getD 0))
    some ({ c with prog := c.prog + 1 }, s.kWrite dl 3 0 0 cells)

/-- COPY_COMPLETE: the next chunk; after the last byte, the event, a copy-fault record for the lowest bad address, and the
packet's completion.  After SHUTDOWN no chunk follows and no event is counted (R113). -/
def execCopyComplete (id : Nat) (remote : Table Byte) (s : State) : Out3 :=
  match s.cmd id with
  | none => .next s
  | some c =>
    if c.ins != Instr.copy then .next s
    else if s.hport.shutdown then .next (s.dropCmd id)
    else if c.shape.total ≤ 128 * c.prog then
      let s := (s.dropCmd id).evAdd (c.val 11) 1
      let s := match c.lowest with
        | some a => s.record (copyFaultRecord (c.val 9) (c.val 10) a)
        | none => s
      .next (s.packetDone (c.val 9) (c.val 12))
    else if !s.copyTurn c then .next (s.copyLater c 1 (.copyComplete id []))
    else
      match s.packetChunk c remote with
      | none => .next (s.copyLater c 1 (.copyComplete id []))
      | some (c, s) =>
        let s := s.putCmd c
        .next (if c.shape.total ≤ 128 * c.prog then s.copyAt phLand s.now c.seq (.copyComplete id [])
          else s.copyLater c 0 (.copyComplete id []))

/-! ## The staging aperture (R128) -/

/-- Translations of n bytes of BAR4 from offset o on, at the home dies; the addresses, the lines, and the state after. -/
def State.stageLines (s : State) (write : Bool) (o n : Nat) : List Nat × Lines × State :=
  let addrs := (List.range n).map (fun k => stagingAddr s (o + k))
  let (l, s) := s.xlLines .packet write (linesOfAddrs addrs)
  (addrs, l, s)

/-- A byte of another package is not this model's: it is free (log entry 2). -/
def State.stageByte (s : State) (l : Lines) (a : Nat) : Byte :=
  match l.get (a / 128) with
  | .remote => .ofNat 8 (Config.free (s.draw + a))
  | _ => (s.kByte l [] a).getD 0

/-- Some byte was non-resident or protected. -/
def Lines.failed (l : Lines) : Bool :=
  l.any (fun e => match e.2 with
    | .absent => true
    | .viol => true
    | _ => false)

def State.setStgerr (s : State) (b : Bool) : State :=
  if b then { s with hport := { s.hport with stgerr := true } }.markSet 0xC 2 else s

/-- STAGING_READ: such bytes read zero and set STGERR; an access to a channel in all-bank mode waits (R98). -/
def execStagingRead (off : BitVec 30) (len : Nat) (s : State) : Out3 :=
  let (addrs, l, s') := s.stageLines false off.toNat len
  if s'.linesBusy l false then .next (s.at none (s.now + 1) phDevice (.stagingRead off len))
  else
    let s' := { s' with hostRead := addrs.map (s'.stageByte l) }
    .next (({ s' with draw := s'.draw + b2n (l.any (fun e => e.2 == Xl.remote)) }).setStgerr l.failed)

/-- Bytes at global addresses that BAR4 writes, behind those that wait: a line whose translation waits for a channel keeps its bytes
waiting, and such a line alone is translated again; the others are written, and one that is non-resident or protected drops its bytes
and sets STGERR. -/
def State.stageWrite (s : State) (cells : List (Nat × Byte)) : State :=
  let all := s.hport.stgWait ++ cells
  let (l, s) := s.xlLines .packet true (linesOfAddrs (all.map (·.1)))
  let waits (c : Nat × Byte) : Bool := l.get (c.1 / 128) == .busy
  let s := { s with hport := { s.hport with stgWait := all.filter waits } }
  (s.kWrite l 3 0 0 (all.filter (fun c => !waits c))).setStgerr l.failed

/-- STAGING_WRITE: the bytes go where STG_BASE puts them now.  A write that waits for an all-bank session (R98) waits in the controller, or
for its translation, in the place that it had when it reached the device; a write of no bytes only tries those again.  Before bring-up
stage 1 and after SHUTDOWN a write is dropped without STGERR; R113 says it of BAR0 alone for the time before stage 1 (DESIGN CHOICE,
log entry 97). -/
def execStagingWrite (off : BitVec 30) (bytes : List Byte) (s : State) : Out3 :=
  let cells := if s.bar0Writes then ((List.range bytes.length).map (fun k => stagingAddr s (off.toNat + k))).zip bytes else []
  if cells.isEmpty && s.hport.stgWait.isEmpty then .next s
  else
    let s := s.stageWrite cells
    .next (if s.hport.stgWait.isEmpty then s else s.at none (s.now + 1) phDevice (.stagingWrite off []))

/-- Bytes of BAR4 as the device itself reads them: a non-resident or protected one reads zero, and such a read sets no STGERR, the
model's choice (log entry 116). -/
def State.staged (s : State) (o n : Nat) : List Byte × State :=
  let (addrs, l, s') := s.stageLines false o n
  (addrs.map (s'.stageByte l), { s' with draw := s'.draw + 1 })

/-! ## The mailbox (R125, R133 to R135) -/

/-- An FWLOAD or QUERY runs: BUSY, and the answer buffer is cleared; its answer shows at DONE. -/
def State.mailbox (s : State) (result : Nat) (answer : List Byte) : State :=
  { s with hport := { s.hport with mbBusy := true, mbBuf := [], mbNext := some (result, answer, s.pkt), loading := none } }

/-- Bank-unit calls run or are held, or a session is open (R133); a call still on its way to its pseudo-channel is neither. -/
def State.unitsBusy (s : State) : Bool :=
  s.seqrs.any (fun e => e.2.running.isSome || !e.2.held.isEmpty || e.2.session.isSome)

/-- The packet of an FWLOAD: the one that waits to read its image, else the one that starts. -/
def State.fwPkt (s : State) : State := { s with pkt := s.hport.loading.getD s.pkt }

/-- The image of an FWLOAD cannot be read yet: a write of BAR4 that reached the device before it waits for an all-bank session, or
its own bytes do (R98, R128). -/
def State.imageWaits (s : State) : Bool :=
  let (_, l, s') := s.stageLines false (s.pkt.num 8 4) (s.pkt.num 12 4)
  s'.linesBusy l false || s.stagePending (l.map (·.1))

/-- An FWLOAD is BUSY and tries again in the next cycle. -/
def State.imageAgain (s : State) (ev : Instr) : State :=
  { s with hport := { s.hport with mbBusy := true, mbBuf := [], loading := some s.pkt } }.later s.nextId 1 ev

/-- FWLOAD_DEVICE: an accepted target-0 image is stored, and runs from the next reset. -/
def execFwloadDevice (s : State) : Out3 :=
  let s := s.fwPkt
  if s.imageWaits then .next (s.imageAgain .fwloadDevice)
  else
    let n := s.pkt.num 12 4
    let (bs, s) := s.staged (s.pkt.num 8 4) n
    let r := imageResult s.hport.minSvn 0 n bs
    let s := if r = 0 then { s with hport := { s.hport with fwStore := bs } } else s
    .next ((s.mailbox r []).later s.nextId 1 .mailboxDone)

/-- The entry table and micro-words of a target-1 payload, over the built-in ones. -/
def State.loadUnits (s : State) (p : List Byte) : State :=
  { s with
    starts := Mem.setBytes s.starts 0x10 (bytesAt p 0 240),
    micro := (List.range 128).foldl (fun m k => m.wr 0 (0x80 + k) (.ofNat 128 (numAt p (256 + 16 * k) 16))) s.micro }

/-- FWLOAD_BANK_UNIT: BUSY while calls run or are held or a session is open; otherwise every copy loads within 1 ms. -/
def execFwloadBankUnit (s : State) : Out3 :=
  let s := s.fwPkt
  let n := s.pkt.num 12 4
  if s.hport.loading.isNone && s.unitsBusy then .next ((s.mailbox 4 []).later s.nextId 1 .mailboxDone)
  else if s.imageWaits then .next (s.imageAgain .fwloadBankUnit)
  else
    let (bs, s) := s.staged (s.pkt.num 8 4) n
    let r := imageResult s.hport.minSvn 1 n bs
    let s := if r = 0 then
        let s := s.loadUnits (bytesAt bs 0x1000 2304)
        { s with hport := { s.hport with buDigest := bytesAt bs 0x10 32 } }
      else s
    .next ((s.mailbox r []).within 2000000 .mailboxDone)

/-- DEV_ID and DEV_FWVER (R112); SVN and BUILD stand from stage 3 on (R10). -/
def State.devId (_s : State) : Nat := 0x4800 + 2 ^ 16 * (Config.devStep.toNat % 256)
def State.fwver (s : State) : Nat := s.hport.build % 65536 + 2 ^ 16 * (s.hport.svn % 65536)

/-- The identity certificate (R134): the keys are the part's own, the hash and the signature follow from them. -/
def State.certificate (s : State) : List Byte :=
  let head := leBytes 4 0x4449584B ++ bytesAt s.hport.serial 0 16 ++ bytesAt Config.identityKey 0 1312
    ++ bytesAt (Config.sha3 (bytesAt Config.mfgKey 0 1312)) 0 32
  head ++ bytesAt (Config.mfgSign (Config.sha3 head)) 0 2420

/-- The attestation report (R135). -/
def State.attestation (s : State) (nonce : List Byte) : List Byte :=
  let body := leBytes 4 0x5441584B ++ leBytes 2 1 ++ leBytes 2 0 ++ bytesAt s.hport.serial 0 16 ++ bytesAt nonce 0 32
    ++ bytesAt s.hport.fwDigest 0 32 ++ bytesAt s.hport.buDigest 0 32 ++ leBytes 2 s.hport.svn ++ leBytes 2 s.hport.minSvn
    ++ leBytes 4 0 ++ leBytes 8 (s.sb.at_ 1).toNat ++ leBytes 8 (s.sb.at_ 0).toNat
  let digest := bytesAt (Config.sha3 body) 0 32
  body ++ digest ++ bytesAt (Config.mlDsaSign digest) 0 2420

/-- The state codes of R141. -/
def FState.code : FState → Nat
  | .waiting => 1
  | .ready => 2
  | .loading => 3
  | .starting => 4
  | .running => 5
  | .freezing => 6
  | .parked => 7
  | .evicting => 8
  | .evicted => 9
  | .restoring => 10

/-- The answer to QUERY item 2. -/
def State.fieldAnswer (s : State) (f : Nat) : List Byte :=
  let x := s.field f
  if !s.live f then leBytes 2 f ++ [0xFF, 0, 0]
  else leBytes 2 f ++ leBytes 1 x.state.code
    ++ (if x.placed then leBytes 1 (x.origin % 16) ++ leBytes 1 (x.origin / 16) else [0, 0])

/-- QUERY item 0. -/
def execQueryDevice (s : State) : Out3 :=
  .next ((s.mailbox 0 (bytesAt s.hport.serial 0 16 ++ leBytes 4 s.devId ++ leBytes 4 s.fwver ++ s.certificate)).later s.nextId 1
    .mailboxDone)

/-- QUERY item 1. -/
def execQueryAttestation (s : State) : Out3 :=
  .next ((s.mailbox 0 (s.attestation (bytesAt s.pkt.bytes 8 32))).later s.nextId 1 .mailboxDone)

/-- QUERY item 2; the items that have no answer end BADITEM. -/
def execQueryFieldState (s : State) : Out3 :=
  let s := if s.pkt.num 4 1 = 2 then s.mailbox 0 (s.fieldAnswer (s.pkt.num 6 2)) else s.mailbox 5 []
  .next (s.later s.nextId 1 .mailboxDone)

/-- MAILBOX_DONE: DONE, RESULT and the answer; vector 3; calls that a load held back go on. -/
def execMailboxDone (s : State) : Out3 :=
  match s.hport.mbNext with
  | none => .next s
  | some (r, bs, p) =>
    let s := { s with hport := { s.hport with
      mbBusy := false, mbDone := true, sets := (0x170000, 1) :: s.hport.sets, mbResult := r, mbLen := bs.length, mbBuf := bs, mbNext := none } }
    let s := (s.msix 3).packetDone p.q p.id
    .next ((s.seqrs.map (·.1)).foldl (fun s k => s.offerCalls k) s)

/-! ## BAR0 (R111, R112, R6 to R9) -/

/-- A 32-bit word of a block of bytes. -/
def wordAt (bs : List Byte) (a : Nat) : Nat := numAt bs a 4

/-- A register of the device block. -/
def State.devReg (s : State) (o : Nat) : Nat :=
  let h := s.hport
  match o with
  | 0x000 => s.devId
  | 0x004 => s.fwver
  | 0x00C => b2n h.offok + 2 * b2n h.badacc + 4 * b2n h.stgerr + 8 * (h.stage % 16) + 128 * (h.errcode % 256)
  | 0x010 => if s.fwWritten then wordAt h.serial 0 else 0
  | 0x014 => if s.fwWritten then wordAt h.serial 4 else 0
  | 0x018 => if s.fwWritten then wordAt h.serial 8 else 0
  | 0x01C => if s.fwWritten then wordAt h.serial 12 else 0
  | 0x020 => h.stgBase.toNat % 2 ^ 32
  | 0x024 => h.stgBase.toNat / 2 ^ 32
  | _ => 0

/-- PKG_STAT (R22).  REPLACE is an FW field: after each reset it reads zero until bring-up stage 3 (R10), also on a package whose
counters are non-zero, which R22 has it show for the life of the package (DESIGN CHOICE, log entry 94). -/
def State.pkgStat (s : State) : Nat :=
  let p := s.pkg
  b2n p.ready + 2 * b2n (s.fwWritten && s.sb.replace) + 4 * b2n p.thwarn + 8 * b2n p.thtrip + 16 * b2n p.droop + 32 * b2n p.degnew

/-- A register of the Col (R32, R33).  Before the time base starts, COL_WINDOW and COL_GRANTNOW count windows from the reset (DESIGN
CHOICE, log entry 95). -/
def State.colReg (s : State) (o : Nat) : Nat :=
  let c := s.col
  match o with
  | 0x000 => if s.fwWritten then c.budget else 0
  | 0x004 => c.standingTotal % 4096
  | 0x008 => c.granted (windowOf s.global) % 4096
  | 0x00C => b2n c.deny + 2 * b2n c.halved + 4 * b2n c.ovrun
  | 0x010 => c.denials.toNat
  | 0x014 => windowOf s.global % 2 ^ 32
  | _ => 0

/-- A Scorebook register or a word of the snapshot buffer (R44, R45). -/
def State.sbReg (s : State) (o : Nat) : Nat :=
  let b := s.sb
  match o with
  | 0x000 => b.index
  | 0x004 => (s.sbAt b.index).toNat % 2 ^ 32
  | 0x008 => b.latch.toNat / 2 ^ 32
  | 0x010 => b.stat % 8
  | 0x014 => b.snapLen
  | _ =>
    if 0x020 ≤ o && o < 0x040 then (b.nonce.rd 0 ((o - 0x20) / 4)).toNat
    else if 0x1000 ≤ o then (if bitAt b.stat 0 then 0 else wordAt b.snap (o - 0x1000))
    else 0

/-- A torus register (R52). -/
def State.torReg (s : State) (o : Nat) : Nat :=
  let t := s.torus
  match o with
  | 0x000 => t.dims.toNat
  | 0x004 => t.coord.toNat
  | 0x008 => 2 * b2n t.root
  | 0x00C => b2n t.timed + 2 * b2n t.cfgerr + 4 * b2n t.tberr
  | 0x010 => t.hop
  | 0x014 => s.global % 2 ^ 32
  | 0x018 => t.latch.toNat / 2 ^ 32
  | _ =>
    if 0x040 ≤ o && o < 0x070 then
      let p := s.port ((o - 0x40) / 8)
      if o % 8 = 0 then b2n p.up + 2 * (p.lanes % 32) + 2 ^ 6 * (p.lat % 4096) + 2 ^ 18 * (p.epoch % 256) else p.peer % 2 ^ 15
    else 0

/-- The mailbox's registers and answer buffer. -/
def State.mbReg (s : State) (o : Nat) : Nat :=
  let h := s.hport
  match o with
  | 0x000 => b2n h.mbBusy + 2 * b2n h.mbDone + 4 * (h.mbResult % 8)
  | 0x004 => h.mbLen
  | _ => if 0x1000 ≤ o then wordAt h.mbBuf (o - 0x1000) else 0

/-- A queue's control word or doorbell page (R116). -/
def State.ctlReg (s : State) (q o : Nat) : Nat :=
  let x := s.queue q
  if o = 0 then b2n x.en + 2 * (x.prio % 8) + 16 * (x.weight % 256) else 0

def State.bellReg (s : State) (q o : Nat) : Nat :=
  let x := s.queue q
  if o = 4 then x.head.toNat
  else if o = 8 then b2n x.err + 2 * (x.code % 8) + 16 * b2n (x.head == x.tail) + 2 ^ 16 * x.errSeq.toNat
  else 0

/-- What an aligned 4-byte read of BAR0 returns; before stage 1 it returns zero (R113). -/
def State.bar0 (s : State) (o : Nat) : W32 :=
  let h := s.hport
  .ofNat 32 (
    if !s.bar0Open then 0
    else if o < 0x1000 then s.devReg o
    else if o = 0x100000 then s.pkgStat
    else if 0x110000 ≤ o && o < 0x120000 then s.colReg (o - 0x110000)
    else if 0x120000 ≤ o && o < 0x124000 then s.sbReg (o - 0x120000)
    else if 0x130000 ≤ o && o < 0x140000 then s.torReg (o - 0x130000)
    else if o = 0x140000 then h.fqProd.toNat
    else if o = 0x140004 then h.fqCons.toNat
    else if o = 0x140008 then b2n h.fqFull + 2 * b2n h.fqNew
    else if 0x141000 ≤ o && o < 0x149000 then h.fqRing.num (o - 0x141000) 4
    else if 0x150000 ≤ o && o < 0x150200 then (h.msixWord ((o - 0x150000) / 4)).toNat
    else if o = 0x150800 then sumNat ((List.range 32).map (fun v => if h.pba.rd false v then 2 ^ v else 0))
    else if 0x160000 ≤ o && o < 0x164000 then (h.ev.rd 0 ((o - 0x160000) / 4)).toNat
    else if 0x170000 ≤ o && o < 0x175000 then s.mbReg (o - 0x170000)
    else if 0x200000 ≤ o && o < 0x204000 then s.ctlReg ((o - 0x200000) / 16) (o % 16)
    else if 0x400000 ≤ o && o < 0x800000 then s.bellReg ((o - 0x400000) / 4096) (o % 4096)
    else 0)

/-- DEV_CTL (R112, R113): of several bits written at once, COMMITSVN acts first, then SHUTDOWN, then RESET (DESIGN CHOICE, log
entry 96). -/
def State.writeDevCtl (s : State) (v : Nat) : State :=
  let run (b : Bool) (m : State → Out3) (s : State) : State :=
    if b then (match m s with
      | .next t => t
      | _ => s) else s
  run (bitAt v 1) execDevReset (run (bitAt v 0) execDevShutdown (run (bitAt v 2) execDevCommitsvn s))

/-- The device block's writes. -/
def State.writeDev (s : State) (o v : Nat) : State :=
  let h := s.hport
  match o with
  | 0x008 => s.writeDevCtl v
  | 0x00C => { s with hport := { h with badacc := s.w1c 0xC 1 v h.badacc, stgerr := s.w1c 0xC 2 v h.stgerr } }
  | 0x020 => { s with hport := { h with stgBase := .ofNat 64 (h.stgBase.toNat / 2 ^ 32 * 2 ^ 32 + fld v 21 11 * 2 ^ 21) } }
  | 0x024 => { s with hport := { h with stgBase := .ofNat 64 (v * 2 ^ 32 + h.stgBase.toNat % 2 ^ 32) } }
  | _ => s

def outState (o : Out3) (s : State) : State :=
  match o with
  | .next t => t
  | _ => s

def State.writeCol (s : State) (o v : Nat) : State :=
  match o with
  | 0x000 => outState (execColBudgetWrite (.ofNat 32 v) s) s
  | 0x00C =>
    let c := s.col
    let ovrun := s.w1c 0x11000C 2 v c.ovrun
    { s with col := { c with deny := s.w1c 0x11000C 0 v c.deny, ovrun := ovrun, overran := if ovrun then c.overran else [] } }
  | _ => s

def State.writeSb (s : State) (o v : Nat) : State :=
  let b := s.sb
  match o with
  | 0x000 => { s with sb := { b with index := v % 2 ^ 14 } }
  | 0x00C => if bitAt v 0 then outState (execSbSnap s) s else s
  | 0x010 =>
    let k := b.stat % 2 + 2 * b2n (s.w1c 0x120010 1 v (bitAt b.stat 1)) + 4 * b2n (s.w1c 0x120010 2 v (bitAt b.stat 2))
    { s with sb := { b with stat := k } }
  | _ => if 0x020 ≤ o && o < 0x040 then { s with sb := { b with nonce := b.nonce.wr 0 ((o - 0x20) / 4) (.ofNat 32 v) } } else s

def State.writeTor (s : State) (o v : Nat) : State :=
  let t := s.torus
  match o with
  | 0x000 => { s with torus := { t with dims := .ofNat 32 (v % 2 ^ 15) } }
  | 0x004 => { s with torus := { t with coord := .ofNat 32 (v % 2 ^ 15) } }
  | 0x008 =>
    let s := { s with torus := { t with root := bitAt v 1 } }
    if bitAt v 0 then outState (execTorTrain s) s else s
  | 0x00C => { s with torus := { t with cfgerr := s.w1c 0x13000C 1 v t.cfgerr, tberr := s.w1c 0x13000C 2 v t.tberr } }
  | 0x010 => outState (execTorHopWrite (.ofNat 32 v) s) s
  | _ => s

/-- FQ_CONS (R129, R130): the host frees room. -/
def State.writeCons (s : State) (v : Nat) : State :=
  { s with hport := { s.hport with fqCons := .ofNat 16 v } }.at none s.now phDevice .faultRecordWrite

def execFqConsWrite (v : W32) (s : State) : Out3 := .next (if s.bar0Writes then s.writeCons (v.toNat % 65536) else s)

/-- A write to the MSI-X table: an address is 4-byte aligned, and vector control holds its mask bit alone. -/
def State.writeMsix (s : State) (k v : Nat) : State :=
  let v := if k % 4 = 0 then v / 4 * 4 else if k % 4 = 3 then v % 2 else v
  { s with hport := { s.hport with msix := s.hport.msix.wr (if k % 4 = 3 then 1 else 0) k (.ofNat 32 v) } }.msixUnmask

/-- An aligned 4-byte write of BAR0, by its block. -/
def State.bar0Write (s : State) (o v : Nat) : State :=
  if o < 0x1000 then s.writeDev o v
  else if o = 0x100000 then
    { s with pkg := { s.pkg with
      thwarn := s.w1c 0x100000 2 v s.pkg.thwarn, droop := s.w1c 0x100000 4 v s.pkg.droop,
      degnew := s.w1c 0x100000 5 v s.pkg.degnew } }
  else if 0x110000 ≤ o && o < 0x120000 then s.writeCol (o - 0x110000) v
  else if 0x120000 ≤ o && o < 0x124000 then s.writeSb (o - 0x120000) v
  else if 0x130000 ≤ o && o < 0x140000 then s.writeTor (o - 0x130000) v
  else if o = 0x140004 then s.writeCons (v % 65536)
  else if o = 0x140008 then { s with hport := { s.hport with fqNew := s.w1c 0x140008 1 v s.hport.fqNew } }
  else if 0x150000 ≤ o && o < 0x150200 then s.writeMsix ((o - 0x150000) / 4) v
  else if 0x160000 ≤ o && o < 0x164000 then s.setEv ((o - 0x160000) / 4) (.ofNat 32 v)
  else if o = 0x170000 then { s with hport := { s.hport with mbDone := s.w1c 0x170000 1 v s.hport.mbDone } }
  else if 0x200000 ≤ o && o < 0x204000 then
    if o % 16 = 0 then s.writeQCtl ((o - 0x200000) / 16) v
    else if o % 16 = 4 then s.resetQueue ((o - 0x200000) / 16) (v % 65536)
    else s
  else if 0x400000 ≤ o && o < 0x800000 then
    if o % 4096 = 0 then s.kick ((o - 0x400000) / 4096) (v % 65536) else s
  else s

/-- An aligned 4-byte read of BAR0: its bytes, and the state after, in which SB_DATALO or TOR_TIMELO has latched (R44, R52). -/
def State.bar0Read (s : State) (o : Nat) : List Byte × State :=
  (leBytes 4 (s.bar0 o).toNat,
    if o = 0x120004 then outState (execSbDataloRead s) s
    else if o = 0x130014 then outState (execTorTimeloRead s) s else s)

/-- An access that R111 allows: aligned, of 4 or 8 bytes. -/
def accessOk (off len : Nat) : Bool := (len == 4 && off % 4 == 0) || (len == 8 && off % 8 == 0)

/-- BAR0_BAD_ACCESS (R111): any access but an aligned one of 4 or 8 bytes returns zero and sets BADACC; an aligned read of 8 bytes is
two of 4 in ascending order.  It sets BADACC after SHUTDOWN too, where R113 lets no write have an effect: the model's choice (log entry
97). -/
def execBar0BadAccess (off len : Nat) (s : State) : Out3 :=
  if accessOk off len then
    .next ((List.range (len / 4)).foldl (fun (acc : State) k =>
      let (bs, t) := acc.bar0Read (off + 4 * k)
      { t with hostRead := acc.hostRead ++ bs }) { s with hostRead := [] })
  else
    let s := { s with hostRead := List.replicate len 0 }
    .next (if !s.bar0Open then s else { s with hport := { s.hport with badacc := true } }.markSet 0xC 1)

/-- An aligned 4-byte write: after SHUTDOWN only DEV_CTL.RESET has an effect (R113). -/
def State.wordWrite (s : State) (o v : Nat) : State :=
  if s.bar0Writes then s.bar0Write o v
  else if o = 8 && bitAt v 1 then outState (execDevReset s) s
  else s

/-- REGISTER_WRITE (R6 to R9, R111): a word, or two words in ascending order; a misaligned write is a bad access. -/
def execRegisterWrite (off : BitVec 26) (v : BarData) (s : State) : Out3 :=
  let o := off.toNat
  match v.high with
  | none => if o % 4 != 0 then execBar0BadAccess o 4 s else .next (s.wordWrite o v.low.toNat)
  | some h => if o % 8 != 0 then execBar0BadAccess o 8 s else .next ((s.wordWrite o v.low.toNat).wordWrite (o + 4) h.toNat)

end Sys2Proof.Machine
end

