-- ==== Sys2Proof/Machine/Fields.lean ====
section
/-! DEFINITION. What a field holds on its tiles (R146, R147, R149, R158, R242): loading it, saving and restoring it (R152, R335), and
giving it back; the stores that a freeze or a completion settles (R312). -/

namespace Sys2Proof.Machine

open Sys2Proof

/-! ## Shares of a tile (R149, R158, R176) -/

/-- The half of a tile's resources a field owns: none for the whole. -/
def State.shareOf (s : State) (f : Nat) : Option Nat := if s.grouped f then some (s.field f).member else none

/-- Key k of a resource of which each member owns `half`. -/
def ownsKey (o : Option Nat) (half k : Nat) : Bool :=
  match o with
  | none => true
  | some m => k / half == m

/-- The part of a table that a share owns. -/
def ownPart {α : Type} (o : Option Nat) (half : Nat) (t : Table α) : Table α := t.filter (fun e => ownsKey o half e.1)

/-- `dst` with a share's part replaced by that of `src`. -/
def putPart {α : Type} (o : Option Nat) (half : Nat) (dst src : Table α) : Table α :=
  match o with
  | none => src
  | some 0 => ownPart o half src ++ dst.filter (fun e => !ownsKey o half e.1)
  | some _ => dst.filter (fun e => !ownsKey o half e.1) ++ ownPart o half src

def dictHalf : Nat := 98304
def scratchHalf : Nat := 393216

/-- Slots of `lastOp`, `running`, `sround` that belong to a member. -/
def ofMember {α : Type} (m : Nat) (t : Table α) : Table α := t.filter (fun e => e.1 % 2 == m)

def putMember {α : Type} (m : Nat) (dst src : Table α) : Table α :=
  (ofMember m src).foldl (fun t e => t.insert e.1 e.2) (dst.filter (fun e => e.1 % 2 != m))

/-- Replace the owned part of every store of a tile. -/
def Tile.putStores (dst src : Tile) (o : Option Nat) : Tile :=
  { dst with
    code := putPart o 16384 dst.code src.code, dict := putPart o dictHalf dst.dict src.dict,
    cells := putPart o 65536 dst.cells src.cells, boff := putPart o 65536 dst.boff src.boff,
    scale := putPart o 4 dst.scale src.scale, acc := putPart o 8192 dst.acc src.acc,
    banks := putPart o 8 dst.banks src.banks, split := src.split }

/-- What an eviction saves of a tile: the stores, the scratchpad, the weight die and the tile record (R335). -/
def Tile.savePart (t : Tile) (o : Option Nat) (f m : Nat) (hws : List Nat) : Tile :=
  { Tile.idle.putStores t o with
    scratch := ownPart o scratchHalf t.scratch, weight := t.weight,
    arr := t.arr.filter (fun c => hws.contains c.hw), mesh := t.mesh.filter (fun c => hws.contains c.hw),
    link := t.link.filter (fun c => hws.contains c.hw), beats := t.beats.filter (fun b => b.field == f),
    running := ofMember m t.running, lastOp := ofMember m t.lastOp, sround := ofMember m t.sround }

/-- What leaves a tile with its field: accepted commands and arrived beats. -/
def Tile.release (t : Tile) (f : Nat) (hws : List Nat) : Tile :=
  { t with
    arr := t.arr.filter (fun c => !hws.contains c.hw), mesh := t.mesh.filter (fun c => !hws.contains c.hw),
    link := t.link.filter (fun c => !hws.contains c.hw), beats := t.beats.filter (fun b => b.field != f) }

/-- A saved part put back (R335). -/
def Tile.restorePart (dst src : Tile) (o : Option Nat) (m : Nat) : Tile :=
  { dst.putStores src o with
    scratch := putPart o scratchHalf dst.scratch src.scratch, weight := src.weight,
    arr := dst.arr ++ src.arr, mesh := dst.mesh ++ src.mesh, link := dst.link ++ src.link, beats := dst.beats ++ src.beats,
    running := putMember m dst.running src.running, lastOp := putMember m dst.lastOp src.lastOp,
    sround := putMember m dst.sround src.sround, unjoined := dst.unjoined }

/-! ## Loading (R124, R146, R147) -/

/-- tloc of place `rel` of a field (R396). -/
def State.tlocOf (s : State) (f : Field) (rel : Nat) : W32 :=
  let p := rel / 4
  .ofNat 32 (p % f.w + 16 * (p / f.w) + 256 * (f.locate rel).1 + 2 ^ 16 * (rel % 4) + 2 ^ 18 * s.pkgNum)

/-- A context as placement leaves it: what R146 and R147 do not name, its window among it, stays as it is. -/
def Ctx.placed (old : Ctx) (f : Field) (n : Nat) (tloc : W32) (pc dbase dlimit : Nat) : Ctx :=
  { Ctx.idle with
    field := some f.num, num := n, pc := pc, dbase := dbase, dlimit := dlimit,
    user := { RegFile.zero with s := Table.wr 0 [] 1 f.arg }, system := old.system, window := old.window,
    catchMem := old.catchMem, sysWin := old.sysWin, tloc := tloc }

/-- A hardware context that its field has left. -/
def Ctx.left (old : Ctx) : Ctx :=
  { Ctx.idle with system := old.system, window := old.window, catchMem := old.catchMem, sysWin := old.sysWin }

/-- The image header of R124 as fields of the launch. -/
structure ImageHead where
  codeLen : Nat
  dictLen : Nat
  ctxs    : List (Nat × Nat × Nat)

def imageHead (b : List Byte) (ctxs : Nat) : ImageHead :=
  ⟨numAt b 4 2, numAt b 6 2, (List.range ctxs).map (fun c => (numAt b (8 + 8 * c) 2, numAt b (10 + 8 * c) 2, numAt b (12 + 8 * c) 2))⟩

/-- A header that R124, or for a group member R176, calls malformed. -/
def badHead (b : List Byte) (f : Field) (grouped : Bool) : Bool :=
  let h := imageHead b f.ctxs
  numAt b 0 4 != 0x4D49584B || decide (h.codeLen = 0) || decide ((if grouped then 16384 else 32768) < h.codeLen)
    || decide ((if grouped then 2048 else 4096) < h.dictLen) || !allZero (bytesAt b 40 88)
    || (List.range 4).any (fun c => numAt b (14 + 8 * c) 2 != 0)
    || h.ctxs.any (fun c => decide (h.dictLen < c.2.1 + c.2.2) || decide (h.codeLen ≤ c.1))

/-- Where the dictionary of an image begins. -/
def dictStart (codeLen : Nat) : Nat := roundUp (128 + 2 * codeLen) 128

/-- n bytes of the image: none while they must wait, for their channel or for a write of BAR4 that came before (R98, R128), else the
bytes when every one is readable. -/
def State.imageBytes (s : State) (a n : Nat) (remote : Table Byte) : Option (Option (List Byte)) × State :=
  let addrs := (List.range n).map (fun k => (a + k) % 2 ^ 64)
  let (l, s) := s.xlLines .packet false (linesOfAddrs addrs)
  if l.missing remote || s.linesBusy l false || s.stagePending (l.map (·.1)) then (none, s)
  else if (l.settle remote).failed then (some none, s)
  else (some (some (addrs.map (fun x => (s.kByte l remote x).getD 0))), s)

/-- Load the code, the dictionary and the cleared stores into one tile, and place its contexts. -/
def State.loadTile (s : State) (f : Field) (h : ImageHead) (code dict : List Byte) (t : Nat) : State :=
  let o := s.shareOf f.num
  let m := f.member
  let src : Tile := { Tile.idle with
    code := (List.range (s.segSize f.num)).map (fun k =>
      (16384 * m + k, if k < h.codeLen then BitVec.ofNat 16 (numAt code (2 * k) 2) else 0xFFFE))
      |>.filter (fun e => e.2 != 0xFFFE),
    dict := Mem.setBytes [] (dictHalf * m) dict, split := o.isSome }
  let s := s.modTile t (fun x =>
    let x := x.putStores src o
    { x with
      running := x.running.insert m (2 * m), lastOp := x.lastOp.filter (fun e => e.1 % 2 != m),
      sround := x.sround.filter (fun e => e.1 != m) })
  (List.range f.ctxs).foldl (fun s n =>
    let (pc, db, dl) := (h.ctxs[n]?).getD (0, 0, 0)
    let rel := 4 * (f.w * (t / 16 - f.origin / 16) + (t % 16 - f.origin % 16)) + n
    s.modCtx t (2 * m + n) (fun c => c.placed f n (s.tlocOf f rel) pc db dl)) s

/-! ## Standing passes (R24) -/

/-- The standing pass of a field: 4 units for each of its tiles. -/
def Field.pass (f : Field) : Nat := 4 * f.w * f.h

/-- A reservation fits every window from now on, once the fields `gone` have left. -/
def State.passFits (s : State) (units : Nat) (gone : List Nat) : Bool :=
  let c := s.col
  let st := sumNat ((c.standing.filter (fun e => !gone.contains e.1)).map (·.2)) + units
  let gs := c.grants.filter (fun g => !gone.contains g.field && decide (windowOf s.global ≤ g.last))
  let at_ (w : Nat) : Nat := sumNat ((gs.filter (·.covers w)).map (·.units))
  (windowOf s.global :: gs.map (fun g => max g.first (windowOf s.global))).all (fun w => decide (st + at_ w ≤ c.force))

/-- A field's standing pass goes, or stays with its partner on the same tiles. -/
def State.freePass (s : State) (f : Nat) : State :=
  let heir := (s.partner f).filter (fun p => s.live p && (s.field p).placed)
  { s with col := { s.col with standing := s.col.standing.filterMap (fun e =>
      if e.1 == f then heir.map (fun p => (p, e.2)) else some e) } }

/-! ## The end of a field (R124, R140, R157, R312, R401) -/

/-- A store's bytes reach the pending version of their line whatever the room. -/
def State.forceAccept (s : State) (c : Cmd) (x : LineAt) : State :=
  if x.remote then s.sendRemote c x.line (s.storeDomain c x.line)
  else s.acceptBytes x.die x.ln (s.storeDomain c x.line) x.bs (writerOf c.field c.rel) c.seq (c.inLine x.line)

/-- The settling of a member at its freeze waits for no session (R312): it walks the tables past them. -/
def allPass : Nat → Bool := fun _ => true

/-- A load or an atomic takes its part in a line before a later store of its context is accepted there (R308).  One that waits for a
session (R98) goes on waiting, and will not see that store. -/
def State.serveFirst (s : State) (line seq : Nat) (c : Cmd) : State :=
  let (c, s) := s.placeLines c c.isAtomic allPass c.wait
  if c.viol.isSome then s.reportViol c
  else if c.isLoad && s.inStashNow c line then let (c, s) := s.hitNow c line; s.putCmd c
  else
    match c.xl.find? (fun x => x.line == line && !x.remote && !x.absent) with
    | none => s.putCmd c
    | some x =>
      match s.serveDirect c x with
      | none => s.putCmd { c with fset := seq :: c.fset }
      | some (c, s) => s.putServed c

/-- The context's earlier accesses to a line are applied before the store (R308). -/
def State.serveEarlier (s : State) (c : Cmd) (line : Nat) : State :=
  (s.cmds.filter (fun x => x.field == c.field && x.rel == c.rel && decide (x.seq < c.seq) && x.wait.contains line
    && (x.isLoad || x.isAtomic) && x.viol.isNone)).foldl (fun s x => s.serveFirst line c.seq x) s

/-- A store or a write-back is accepted at once, and completes. -/
def State.forceStore (s : State) (c : Cmd) : State :=
  if c.isWriteBack then
    match s.placeWriteBack c allPass with
    | some (some x, s) => (s.forceAccept c x).dropCmd c.id
    | some (none, s) => s.dropWriteBack c
    | none => s
  else
    let (c, s) := s.placeLines c true allPass c.wait
    if c.viol.isSome then s.reportViol c
    else
      let (c, s) := (c.xl.filter (fun x => c.wait.contains x.line)).foldl (fun (acc : Cmd × State) x =>
        if x.absent then ({ acc.1 with flags := x.line :: acc.1.flags }, acc.2)
        else
          let s := (acc.2.serveEarlier acc.1 x.line).forceAccept acc.1 x
          if s.inStashNow acc.1 x.line then s.hitNow acc.1 x.line else (acc.1, s)) (c, s)
      (s.finishAccess c).complete c

/-- Every store of a field that was issued is accepted, in issue order. -/
def State.forceStores (s : State) (f : Nat) (only : Cmd → Bool) : State :=
  (s.cmds.filter (fun c => c.field == f && only c)).foldl (fun s c => s.forceStore c) s

def Cmd.isWrite (c : Cmd) : Bool := c.isStore || c.isWriteBack

/-- The pending versions of a field's domains commit (R312). -/
def State.commitField (s : State) (f : Nat) : State :=
  { s.commitWhere (fun b => b.dom.field == f) with away := s.away.filter (fun a => a.1.field != f) }

/-- R312 at a member's freeze: stores issued before F are accepted, versions commit, and both members' maps are emptied. -/
def State.settleMember (s : State) (f : Nat) : State :=
  let s := (s.forceStores f Cmd.isWrite).commitField f
  ([f] ++ (s.partner f).toList).foldl (fun s g =>
    if (s.field g).placed then (s.field g).places.foldl (fun s p => s.modCtx p.1 p.2 (·.empty (fun _ => true))) s else s) s

/-- The tiles, contexts and accepted commands of a field are free. -/
def State.freeTiles (s : State) (f : Nat) : State :=
  let x := s.field f
  let s := x.places.foldl (fun s p => s.modCtx p.1 p.2 Ctx.left) s
  x.tiles.foldl (fun s t => s.modTile t (fun y => y.release f x.hws)) s

/-- A group ends when both members have completed, or when a LAUNCH of one fails (R157). -/
def State.groupEnd (s : State) (f : Nat) (failed : Bool) : State :=
  match s.partner f with
  | none => s
  | some p =>
    if failed || s.finished.contains p then
      { s with
        groups := s.groups.filter (fun g => g.1 != f && g.2 != f), finished := s.finished.filter (fun x => x != f && x != p),
        shapes := (s.shapes.remove f).remove p }
    else { s with finished := f :: s.finished }

/-- A field has left the tiles that a pre-emption claims (R151). -/
def State.unclaim (s : State) (v : Nat) : State :=
  { s with fields := s.fields.map (fun e => (e.1, { e.2 with claim := e.2.claim.map (fun c => (c.1, c.2.filter (· != v))) })) }

/-- A field is gone: DONEEV counts, its LAUNCH and every packet that waits for it complete.  Its notices still go to the span's other
packages (R161). -/
def State.fieldGone (s : State) (f : Nat) (failed : Bool) : State :=
  let x := s.field f
  let s := (((s.freePass f).lapse f).groupEnd f failed).unclaim f
  let s := { s with
    fields := s.fields.remove f, saved := s.saved.remove f, doms := s.doms.filter (fun e => e.1.field != f),
    cmds := s.cmds.filter (fun c => c.field != f), agenda := s.agenda.filter (fun d => d.clk != some f), decide_ := true,
    torus := { s.torus with sendq := s.torus.sendq.map (fun (e : Nat × Nat × List Byte) => if e.1 == f then (2 ^ 16, e.2) else e) },
    col := { s.col with overran := s.col.overran.filter (· != f) } }
  (((s.evAdd x.doneEv 1).packetDone x.queue x.launch).packetsDone x.parkers).packetsDone (x.evicters ++ x.resumers)

/-! ## Eviction and restore (R152, R335, R491) -/

/-- The bytes of a field's saved state on one tile: what R335 lists (log entry 14). -/
def State.saveBytes (s : State) (f : Nat) : Nat :=
  let half := (s.shareOf f).isSome
  let n (whole : Nat) : Nat := if half then whole / 2 else whole
  (s.field f).ctxs * 192512 + 8192 + n (8 * quarterBytes) + n 131072 + n (16 * bankBytes) + n 786432 + 33554432 + n 262144

def FState.saving (x : FState) : Bool := x == .evicting || x == .evicted || x == .restoring

/-- Every save pool of the dies of some fields has room for all of them, 4 GiB a die, beside the fields whose state it holds or that
are on the way there (R152). -/
def State.poolsHold (s : State) (fs : List Nat) : Bool :=
  let need (g d : Nat) : Nat := s.saveBytes g * ((s.field g).tiles.filter (fun t => dieOfTile t == d)).length
  let there := (s.fields.map (·.1)).filter (fun g => fs.contains g || (s.field g).state.saving || (s.field g).toEvict)
  (fs.flatMap (fun f => (s.field f).dies)).all (fun d => decide (sumNat (there.map (fun g => need g d)) ≤ 4 * GiB))

/-- The same for a field, and for the member of its group that is evicted with it (R491). -/
def State.poolRoom (s : State) (f : Nat) : Bool :=
  s.poolsHold (f :: (s.partner f).toList.filter (fun p => s.live p && (s.field p).placed))

/-- What a service entry writes in registers that user mode sees again: CAUSE 0x00 and a SUB (R320, R328, R335). -/
def Ctx.serviceInfo (c : Ctx) (sub : Nat) : Ctx :=
  { c with tinfo0 := tinfo0Of ⟨0, sub, 0, 0, 0⟩ false false false c.pc, tinfo1 := 0, tinfo2 := 0, smap := c.smap ||| 1 }

/-- The context that serves: in system mode, at the first halfword of the system code store. -/
def Ctx.enterService (c : Ctx) (now sub : Nat) : Ctx :=
  { c.serviceInfo sub with
    sys := true, pc := 0,
    dly := 0, litPaid := false, loops := [], readyAt := now + 4, yieldAt := none, halted := false, done := false, phase := none,
    pending := [], stepDue := none, softDue := none, uiret := false, back := false, pline := none, uiPline := none, inflight := [] }

/-- EVICTING: the stashes are written back and emptied, as CSAVE unmaps them (R277, R485); each context's state is kept, and each
context enters the save service. -/
def State.startEvict (s : State) (f : Nat) : State :=
  let x := s.field f
  let s := x.places.foldl (fun s p => s.unmapWhere p.1 p.2 (fun _ => true)) s
  let keep (p : Nat) : SavedTile :=
    ⟨p, (List.range x.ctxs).map (fun n => let l := x.locate (4 * p + n); (s.ctx l.1 l.2).serviceInfo 1), Tile.idle⟩
  let s := { s with saved := s.saved.insert f ((List.range (x.w * x.h)).map keep) }
  let s := s.modField f (fun x => { x with state := .evicting, resumeG := none })
  let s := x.places.foldl (fun s p => s.modCtx p.1 p.2 (fun c => { c.enterService s.now 1 with drowsy := false })) s
  s.later s.nextId 1 (.savesComplete (.ofNat 16 f))

/-- The fields of a group that are on the tiles. -/
def State.groupOf (s : State) (f : Nat) : List Nat :=
  f :: ((s.partner f).toList.filter (fun p => s.live p && (s.field p).placed))

/-- A group whose eviction is asked for is evicted whole once every member is parked (R491). -/
def State.evictReady (s : State) (f : Nat) : State :=
  let ms := s.groupOf f
  if ms.any (fun m => (s.field m).toEvict) && ms.all (fun m => (s.field m).state == .parked) then ms.foldl State.startEvict s else s

/-- A request to evict (R142, R153, R491); a field whose pools lack room is not evicted (R152). -/
def State.requestEvict (s : State) (f : Nat) : State :=
  let ms := s.groupOf f
  if !ms.all s.poolRoom then s
  else
    let s := ms.foldl (fun s m =>
      let st := (s.field m).state
      if st == .running || st == .freezing then s.requestFreeze m true
      else s.modField m (fun x => { x with toEvict := true, ranAtFreeze := false, resumeG := none })) s
    s.evictReady f

end Sys2Proof.Machine
end

