-- ==== Sys2Proof/Decode.lean ====
section
/-! DEFINITION. Bundles and slot containers (12_encoding.md): the decoder, total on any bits and rejecting by name, and
after it the encoder. -/

namespace Sys2Proof

/-- The six slots of a bundle (R338). -/
inductive Slot where
  | a | v0 | v1 | m | s | g
deriving DecidableEq, Repr

/-- Why a container is no instruction (R356, R357), in the order in which a slot's checks run. -/
inductive DecodeError where
  /-- an unassigned OP: ILLEGAL 0x01 -/
  | unassigned
  /-- a V0-only OP in V1: ILLEGAL 0x01 -/
  | v0Only
  /-- a bit shown as 0, or of a field the instruction never uses, is 1: ILLEGAL 0x01 -/
  | zeroBits
  /-- an operand field outside its range, or not zero where the form requires it: ILLEGAL 0x05 -/
  | operand
  /-- FORM not 000, or header bits [374:368] not zero: ILLEGAL 0x01 of the bundle -/
  | header
deriving DecidableEq, Repr

/-- The ILLEGAL sub-cause of a decode error (R321, R356). -/
def DecodeError.sub : DecodeError → Nat
  | .operand => 0x05
  | _ => 0x01

abbrev Dec := Except DecodeError Instr

/-- Zero bits first, then operand fields (R357). -/
def decIf (zeros range : Bool) (i : Instr) : Dec :=
  if !zeros then .error .zeroBits else if !range then .error .operand else .ok i

def guardOf (n : Nat) : Guard := ⟨n / 8 % 2 == 1, BitVec.ofNat 3 n⟩
def guardCode (g : Guard) : Nat := 8 * b2n g.neg + g.p.toNat

/-! ## The S slot (R346, R350) -/

def decSA (g : Guard) (r : Guard → BitVec 5 → BitVec 5 → BitVec 5 → Instr)
    (i : Guard → BitVec 5 → BitVec 5 → BitVec 42 → Instr) (body : Nat) : Dec :=
  match unpackFields [5, 5, 1, 42] body with
  | [d, a, 0, x] => decIf (x % 2 ^ 37 == 0) true (r g (.ofNat 5 d) (.ofNat 5 a) (.ofNat 5 (x / 2 ^ 37)))
  | [d, a, _, x] =>
    let t := i g (.ofNat 5 d) (.ofNat 5 a) (.ofNat 42 x)
    decIf true t.wf t
  | _ => .error .zeroBits

def decSB (op : Nat) (g : Guard) (body : Nat) : Dec :=
  match unpackFields [5, 4, 1, 15, 28] body with
  | [a, cc, ind, tg, z] =>
    let z := z == 0
    match op with
    | 0x12 => decIf z (ind == 0 && decide (cc ≤ 5)) (.br g (.ofNat 4 cc) (.ofNat 5 a) (.ofNat 15 tg))
    | 0x13 =>
      if ind = 0 then decIf z (cc == 0 && a == 0) (.jmpLabel g (.ofNat 15 tg))
      else decIf z (cc == 0 && tg == 0) (.jmpReg g (.ofNat 5 a))
    | 0x14 =>
      if ind = 0 then decIf z (cc == 0 && a == 0) (.callLabel g (.ofNat 15 tg))
      else decIf z (cc == 0 && tg == 0) (.callReg g (.ofNat 5 a))
    | _ => decIf z (ind == 1 && cc == 0 && tg == 0) (.ret g (.ofNat 5 a))
  | _ => .error .zeroBits

def decSK (op : Nat) (g : Guard) (body : Nat) : Dec :=
  match unpackFields [16, 37] body with
  | [k, z] =>
    let z := z == 0
    match op with
    | 0x17 => decIf z (decide (1 ≤ k) && decide (k ≤ 6)) (.lbrk g (.ofNat 16 k))
    | 0x1B => if k = 0 then decIf z true (.yield g) else decIf z (k == 1) (.yieldField g)
    | 0x1F => decIf z true (.trap g (.ofNat 16 k))
    | 0x20 => decIf (z && k == 0) true (.tret g)
    | 0x21 => decIf (z && k == 0) true (.uiret g)
    | _ => decIf (z && k == 0) true (.done g)
  | _ => .error .zeroBits

def decSX (op : Nat) (g : Guard) (body : Nat) : Dec :=
  match unpackFields [5, 12, 4, 32] body with
  | [sd, sl, md, imm] =>
    let d : BitVec 5 := .ofNat 5 sd
    let r : BitVec 12 := .ofNat 12 sl
    let t : BitVec 6 := .ofNat 6 sl
    let im : BitVec 32 := .ofNat 32 imm
    match op with
    | 0x18 =>
      match md with
      | 0 => decIf true (sd == 0 && decide (sl < 16)) (.waitImm g (.ofNat 4 sl) im)
      | 1 => decIf true (imm == 0 && decide (sl < 16)) (.waitReg g (.ofNat 4 sl) d)
      | 2 => decIf true (imm == 0 && sl == 0) (.waitTcyc g d)
      | _ => .error .operand
    | 0x19 => decIf (sd == 0 && md == 0 && imm == 0) (decide (sl < 8)) (.phase g (.ofNat 3 sl))
    | 0x1A =>
      match md with
      | 0 => decIf true (sl == 0 && passReqOk im) (.pass g d im)
      | 1 => decIf true (decide (sl < 32) && passReqOk im) (.passCycleReg g d im (.ofNat 5 sl))
      | _ => .error .operand
    | 0x1C =>
      match md with
      | 0 => decIf true (decide (sl < 64) && imm == 0) (.view g t d)
      | 1 => decIf true (decide (sl < 64) && sd == 0 && decide (imm < 64)) (.viewCopy g t (.ofNat 6 imm))
      | 2 => decIf true (decide (sl < 64)) (.viewBase g t d im)
      | 3 => decIf true (decide (sl < 64) && sd == 0 && decide (imm < 256)) (.viewGen g t (.ofNat 8 imm))
      | _ => .error .operand
    | 0x1D => decIf true (md == 0 && imm == 0 && listedSelector r) (.gets g d r)
    | _ =>
      match md with
      | 0 => decIf true (imm == 0 && listedSelector r) (.setsReg g r d)
      | 1 => decIf true (sd == 0 && listedSelector r) (.setsImm g r im)
      | 2 => decIf true (sd == 0 && listedSelector r) (.setsOr g r im)
      | 3 => decIf true (sd == 0 && listedSelector r) (.setsClr g r im)
      | _ => .error .operand
  | _ => .error .zeroBits

def decSC (g : Guard) (body : Nat) : Dec :=
  match unpackFields [3, 1, 4, 5, 1, 39] body with
  | [pd, z, cc, a, 0, x] =>
    decIf (z == 0 && x % 2 ^ 34 == 0) (decide (cc ≤ 0xB))
      (.cmpReg g (.ofNat 3 pd) (.ofNat 4 cc) (.ofNat 5 a) (.ofNat 5 (x / 2 ^ 34)))
  | [pd, z, cc, a, _, x] =>
    decIf (z == 0) (decide (cc ≤ 0xB)) (.cmpImm g (.ofNat 3 pd) (.ofNat 4 cc) (.ofNat 5 a) (.ofNat 39 x))
  | _ => .error .zeroBits

def decS (op : Nat) (g : Guard) (body : Nat) : Dec :=
  match op with
  | 0x01 => decSA g .addReg .addImm body
  | 0x02 => decSA g .subReg .subImm body
  | 0x03 => decSA g .mulReg .mulImm body
  | 0x04 => decSA g .mulhReg .mulhImm body
  | 0x05 => decSA g .andReg .andImm body
  | 0x06 => decSA g .orReg .orImm body
  | 0x07 => decSA g .xorReg .xorImm body
  | 0x08 => decSA g .shlReg .shlImm body
  | 0x09 => decSA g .shrReg .shrImm body
  | 0x0A => decSA g .sraReg .sraImm body
  | 0x0B => decSA g .minReg .minImm body
  | 0x0C => decSA g .maxReg .maxImm body
  | 0x0D =>
    match unpackFields [5, 5, 6, 37] body with
    | [d, a, fn, z] => decIf (z == 0) (decide (fn ≤ 0x0A)) (.bitc g (.ofNat 5 d) (.ofNat 5 a) (.ofNat 6 fn))
    | _ => .error .zeroBits
  | 0x0E =>
    match unpackFields [5, 48] body with
    | [d, imm] => .ok (.li g (.ofNat 5 d) (.ofNat 48 imm))
    | _ => .error .zeroBits
  | 0x0F => decSC g body
  | 0x10 =>
    match unpackFields [3, 1, 4, 4, 4, 37] body with
    | [pd, z1, tt, pa, pb, z2] =>
      decIf (z1 == 0 && z2 == 0) true (.plog g (.ofNat 3 pd) (.ofNat 4 tt) (guardOf pa) (guardOf pb))
    | _ => .error .zeroBits
  | 0x11 =>
    match unpackFields [5, 5, 5, 4, 34] body with
    | [d, a, b, ps, z] => decIf (z == 0) true (.sel g (.ofNat 5 d) (guardOf ps) (.ofNat 5 a) (.ofNat 5 b))
    | _ => .error .zeroBits
  | 0x12 => decSB op g body
  | 0x13 => decSB op g body
  | 0x14 => decSB op g body
  | 0x15 => decSB op g body
  | 0x16 =>
    match unpackFields [5, 1, 16, 15, 16] body with
    | [a, 0, n, e, z] => decIf (z == 0) (n == 0) (.loopReg g (.ofNat 5 a) (.ofNat 15 e))
    | [a, _, n, e, z] => decIf (z == 0) (a == 0) (.loopImm g (.ofNat 16 n) (.ofNat 15 e))
    | _ => .error .zeroBits
  | 0x17 => decSK op g body
  | 0x18 => decSX op g body
  | 0x19 => decSX op g body
  | 0x1A => decSX op g body
  | 0x1B => decSK op g body
  | 0x1C => decSX op g body
  | 0x1D => decSX op g body
  | 0x1E => decSX op g body
  | 0x1F => decSK op g body
  | 0x20 => decSK op g body
  | 0x21 => decSK op g body
  | 0x22 => decSK op g body
  | _ => .error .unassigned

/-! ## The G slot (R347, R351) -/

def decG (op : Nat) (g : Guard) (body : Nat) : Dec :=
  match op with
  | 0x01 =>
    match unpackFields [4, 4, 1, 30] body with
    | [d, a, 0, x] => decIf (x % 2 ^ 25 == 0) true (.aaddReg g (.ofNat 4 d) (.ofNat 4 a) (.ofNat 5 (x / 2 ^ 25)))
    | [d, a, _, x] => .ok (.aaddImm g (.ofNat 4 d) (.ofNat 4 a) (.ofNat 30 x))
    | _ => .error .zeroBits
  | 0x02 =>
    match unpackFields [4, 32, 3] body with
    | [d, imm, z] => decIf (z == 0) true (.ali g (.ofNat 4 d) (.ofNat 32 imm))
    | _ => .error .zeroBits
  | 0x03 =>
    match unpackFields [1, 4, 5, 29] body with
    | [0, a, s, z] => decIf (z == 0) true (.amovToA g (.ofNat 4 a) (.ofNat 5 s))
    | [_, a, s, z] => decIf (z == 0) true (.amovToS g (.ofNat 5 s) (.ofNat 4 a))
    | _ => .error .zeroBits
  | 0x04 =>
    match unpackFields [4, 2, 5, 16, 12] body with
    | [a, 0, s, inc, z] => decIf (z == 0 && s == 0) true (.acfgLin g (.ofNat 4 a) (.ofNat 16 inc))
    | [a, 1, s, inc, z] => decIf (z == 0) true (.acfgMod g (.ofNat 4 a) (.ofNat 5 s) (.ofNat 16 inc))
    | [a, 2, s, inc, z] => decIf (z == 0) true (.acfgBrev g (.ofNat 4 a) (.ofNat 5 s) (.ofNat 16 inc))
    | [_, _, _, _, z] => if z = 0 then .error .operand else .error .zeroBits
    | _ => .error .zeroBits
  | 0x05 =>
    match unpackFields [5, 6, 4, 24] body with
    | [s, t, a, z] => decIf (z == 0) true (.lidx g (.ofNat 4 a) (.ofNat 6 t) (.ofNat 5 s))
    | _ => .error .zeroBits
  | 0x06 =>
    match unpackFields [3, 6, 30] body with
    | [q, t, z] => decIf (z == 0) true (.pf g (.ofNat 3 q) (.ofNat 6 t))
    | _ => .error .zeroBits
  | _ => .error .unassigned

/-! ## The V slots (R344, R348, R352, R408) -/

/-- A source position that names a tile, a queue entry or the held operand (R344, R356). -/
def srcOf (n : Nat) : Option VSrc :=
  match unpackFields [1, 2, 6] n with
  | [h, 0, ix] => some (.tile (h == 1) (.ofNat 6 ix))
  | [h, 1, ix] => if ix < 8 then some (.queue (h == 1) (.ofNat 3 ix)) else none
  | [0, 2, 0] => some .held
  | _ => none

/-- A position that holds a scalar register when `sc` is set. -/
def opOf (sc : Bool) (n : Nat) : Option VOp :=
  if sc then (if n < 32 then some (.scalar (.ofNat 5 n)) else none) else (srcOf n).map .src

/-- The body of a V-slot container, taken apart (R348, R408). -/
structure VBody where
  d : Nat
  pa : Nat
  pb : Nat
  pc : Nat
  rf : Nat
  sat : Bool
  sbs : Bool
  scs : Bool
  opx : Nat

def vBody (n : Nat) : VBody :=
  match unpackFields [6, 9, 9, 9, 2, 1, 1, 1, 15] n with
  | [d, a, b, c, rf, sat, sbs, scs, opx] => ⟨d, a, b, c, rf, sat == 1, sbs == 1, scs == 1, opx⟩
  | _ => ⟨0, 0, 0, 0, 0, false, false, false, 0⟩

/-- The function-field bits an instruction never uses must be zero (R408): which of RF, SAT, SBS and SCS it uses, and
the mask of OPX bits it uses. -/
def VBody.zerosOk (b : VBody) (rf sat sbs scs : Bool) (opx : Nat) : Bool :=
  (rf || b.rf == 0) && (sat || !b.sat) && (sbs || !b.sbs) && (scs || !b.scs)
    && (Nat.land b.opx opx == b.opx)

/-- A V-slot instruction made from optional operands: any missing one is an operand error. -/
def decV (zeros : Bool) (i : Option Instr) : Dec :=
  if !zeros then .error .zeroBits else
  match i with
  | none => .error .operand
  | some i => if i.wf then .ok i else .error .operand

def onlyA (b : VBody) : Bool := b.pb == 0 && b.pc == 0
def noC (b : VBody) : Bool := b.pc == 0

def decVBin (h : VHdr) (b : VBody) (mk : VHdr → BitVec 6 → VSrc → VOp → BitVec 2 → Bool → Instr) : Dec :=
  decV (b.zerosOk true true true false 0)
    (if noC b then do
      let a ← srcOf b.pa
      let bb ← opOf b.sbs b.pb
      pure (mk h (.ofNat 6 b.d) a bb (.ofNat 2 b.rf) b.sat) else none)

def decVLog (h : VHdr) (b : VBody) (mk : VHdr → BitVec 6 → VSrc → VOp → Instr) : Dec :=
  decV (b.zerosOk false false true false 0)
    (if noC b then do
      let a ← srcOf b.pa
      let bb ← opOf b.sbs b.pb
      pure (mk h (.ofNat 6 b.d) a bb) else none)

def decVUn (h : VHdr) (b : VBody) (mk : VHdr → BitVec 6 → VSrc → BitVec 2 → Bool → Instr) : Dec :=
  decV (b.zerosOk true true false false 0)
    (if onlyA b then do
      let a ← srcOf b.pa
      pure (mk h (.ofNat 6 b.d) a (.ofNat 2 b.rf) b.sat) else none)

def amtOf (b : VBody) : Option VAmt :=
  if b.sbs then (if b.pb < 32 && b.opx == 0 then some (.scalar (.ofNat 5 b.pb)) else none)
  else if b.pb == 0 then some (.imm (.ofNat 6 b.opx)) else none

def decVAmt (h : VHdr) (b : VBody) (mask : Nat) (mk : VHdr → BitVec 6 → VSrc → VAmt → Instr) : Dec :=
  decV (b.zerosOk false false true false mask)
    (if noC b then do
      let a ← srcOf b.pa
      let n ← amtOf b
      pure (mk h (.ofNat 6 b.d) a n) else none)

def decVRed (h : VHdr) (b : VBody) (mk : VHdr → BitVec 6 → VSrc → BitVec 2 → Bool → BitVec 2 → Bool → Instr) : Dec :=
  decV (b.zerosOk true true false false 7)
    (if onlyA b then do
      let a ← srcOf b.pa
      pure (mk h (.ofNat 6 b.d) a (.ofNat 2 b.opx) (bitAt b.opx 2) (.ofNat 2 b.rf) b.sat) else none)

/-- VSHL and VSHR (R424): OPX[14] the immediate form, OPX[13] U, OPX[5:0] the immediate. -/
def decVShift (h : VHdr) (b : VBody) (left : Bool) : Dec :=
  let im := bitAt b.opx 14
  let u := bitAt b.opx 13
  let n := b.opx % 64
  let zeros := b.zerosOk false left true false 0x603F && !(left && u) && !(im && b.sbs)
  decV zeros
    (if noC b then do
      let a ← srcOf b.pa
      let d : BitVec 6 := .ofNat 6 b.d
      if im then
        if b.pb == 0 then
          pure (if left then .vshlImm h d a (.ofNat 6 n) b.sat else .vshrImm h d a (.ofNat 6 n) u) else none
      else if n != 0 then none
      else if b.sbs then
        if b.pb < 32 then
          pure (if left then .vshlScalar h d a (.ofNat 5 b.pb) b.sat else .vshrScalar h d a (.ofNat 5 b.pb) u) else none
      else do
        let bb ← srcOf b.pb
        pure (if left then .vshlTile h d a bb b.sat else .vshrTile h d a bb u)
    else none)

/-- VMSK (R426): OPX[14:13] the mode; OPX[12] is used by no form. -/
def decVMsk (h : VHdr) (b : VBody) : Dec :=
  let d : BitVec 6 := .ofNat 6 b.d
  let x := b.opx % 4096
  decV (b.zerosOk false false true false 0x6FFF)
    (if b.pa == 0 && b.pc == 0 then
      match b.opx / 8192 with
      | 0 => if !b.sbs && b.pb == 0 && x / 2048 == 0 then some (.vmskPre h d (.ofNat 11 x)) else none
      | 1 => if !b.sbs && b.pb == 0 then some (.vmskRect h d (.ofNat 5 (x / 128)) (.ofNat 7 x)) else none
      | 2 => if b.sbs && x == 0 && b.pb < 32 then some (.vmskRng h d (.ofNat 5 b.pb)) else none
      | _ => none
    else none)

def decVShp (h : VHdr) (b : VBody) : Dec :=
  let d : BitVec 6 := .ofNat 6 b.d
  decV (b.zerosOk false false true false 0x7FFF)
    (if b.pa == 0 && b.pc == 0 then
      if b.sbs then (if b.opx == 0 && b.pb < 32 then some (.vshpReg h d (.ofNat 5 b.pb)) else none)
      else if b.pb == 0 then
        match unpackFields [1, 4, 4, 6] b.opx with
        | [0, ty, r, c] => some (.vshpType h d (.ofNat 4 ty) (.ofNat 4 r) (.ofNat 6 c))
        | [_, 0, r, c] => some (.vshpKeep h d (.ofNat 4 r) (.ofNat 6 c))
        | _ => none
      else none
    else none)

def decVBody (op : Nat) (h : VHdr) (b : VBody) : Dec :=
  let d : BitVec 6 := .ofNat 6 b.d
  match op with
  | 0x01 => decVBin h b .vadd
  | 0x02 => decVBin h b .vsub
  | 0x03 => decVBin h b .vmul
  | 0x04 => decV (b.zerosOk true true true true 0) (do
      let a ← srcOf b.pa
      let bb ← opOf b.sbs b.pb
      let c ← opOf b.scs b.pc
      pure (.vfma h d a bb c (.ofNat 2 b.rf) b.sat))
  | 0x05 => decVLog h b .vmin
  | 0x06 => decVLog h b .vmax
  | 0x07 => decVBin h b .vdiv
  | 0x08 => decVUn h b .vsqrt
  | 0x09 => decVUn h b .vrsq
  | 0x0A => decVUn h b .vexp2
  | 0x0B => decVUn h b .vlog2
  | 0x0C => decVLog h b .vand
  | 0x0D => decVLog h b .vor
  | 0x0E => decVLog h b .vxor
  | 0x0F => decVShift h b true
  | 0x10 => decVShift h b false
  | 0x11 => decV (b.zerosOk false false true false 15) (if noC b then do
      let a ← srcOf b.pa
      let bb ← opOf b.sbs b.pb
      pure (.vcmp h d a bb (.ofNat 4 b.opx)) else none)
  | 0x12 => decV (b.zerosOk false false true true 0) (do
      let m ← srcOf b.pa
      let x ← opOf b.sbs b.pb
      let y ← opOf b.scs b.pc
      pure (.vsel h d m x y))
  | 0x13 => decV (b.zerosOk false false false false 0) (if onlyA b then (srcOf b.pa).map (.vmov h d) else none)
  | 0x14 => decVUn h b .vcvt
  | 0x15 => decV (b.zerosOk true true false false 0)
      (if onlyA b && b.pa < 32 then some (.vsplat h d (.ofNat 5 b.pa) (.ofNat 2 b.rf) b.sat) else none)
  | 0x16 => decV (b.zerosOk false false true false 0x3FF)
      (if noC b && b.d < 32 then do
        let a ← srcOf b.pa
        if b.sbs then
          if b.pb < 32 && b.opx == 0 then pure (.vextReg h (.ofNat 5 b.d) a (.ofNat 5 b.pb)) else none
        else if b.pb == 0 then pure (.vextImm h (.ofNat 5 b.d) a (.ofNat 10 b.opx)) else none
      else none)
  | 0x17 => decVAmt h b 0xF .vrotr
  | 0x18 => decVAmt h b 0x3F .vrotc
  | 0x19 => if b.sbs && b.opx != 0 then .error .zeroBits else decVAmt h b 0xF .vbcr
  | 0x1A => if b.sbs && b.opx != 0 then .error .zeroBits else decVAmt h b 0x3F .vbcc
  | 0x1B => decVRed h b .vredr
  | 0x1C => decVRed h b .vredc
  | 0x1D => decV (b.zerosOk false false false false 0xFF) (if noC b then do
      let a ← srcOf b.pa
      let cb : BitVec 4 := .ofNat 4 b.opx
      let nt : BitVec 2 := .ofNat 2 (b.opx / 16)
      let sr := bitAt b.opx 6
      if bitAt b.opx 7 then do
        let o ← srcOf b.pb
        pure (.vqltOffsets h d a o cb nt sr)
      else if b.pb == 0 then pure (.vqlt h d a cb nt sr) else none
      else none)
  | 0x1E => decV (b.zerosOk false false false false 15)
      (if onlyA b then (srcOf b.pa).map (fun a => .vboff h d a (.ofNat 4 b.opx)) else none)
  | 0x1F => decVShp h b
  | 0x20 => decVMsk h b
  | 0x21 => decV (b.zerosOk false false false false 0)
      (if onlyA b && b.d < 32 then (srcOf b.pa).map (.vpop h (.ofNat 5 b.d)) else none)
  | 0x22 => decV (b.zerosOk false false false false 0) (if noC b then do
      let a ← srcOf b.pa
      let o ← srcOf b.pb
      pure (.vshuf h d a o) else none)
  | _ => .error .unassigned

/-- The V0-only opcodes of R352. -/
def v0OnlyOp (op : Nat) : Bool := (0x07 ≤ op && op ≤ 0x0B) || op == 0x1D || op == 0x22

def decVSlot (v1 : Bool) (op : Nat) (g : Guard) (body : Nat) : Dec :=
  if v1 && v0OnlyOp op then .error .v0Only else decVBody op ⟨v1, g⟩ (vBody body)

/-! ## The A slot (R345, R353, R439) -/

/-- The timing field (R345). -/
def timingOf (n : Nat) : Option Timing :=
  match unpackFields [1, 1, 20] n with
  | [1, 0, 0] => some .now
  | [0, 1, s] => if s < 32 then some (.reg (.ofNat 5 s)) else none
  | [0, 0, s] => some (.start (.ofNat 20 s))
  | _ => none

/-- An engine command: zero bits, then the timing field, then its own fields. -/
def decE (zeros : Bool) (tm : Nat) (range : Bool) (mk : Timing → Instr) : Dec :=
  if !zeros then .error .zeroBits else
  match timingOf tm with
  | none => .error .operand
  | some t => if range then .ok (mk t) else .error .operand

/-- A mask operand of STREAM: a view or `none` (R446). -/
def maskOf (n : Bool) (v : Nat) : Option (BitVec 6) := if n then none else some (.ofNat 6 v)

def decStream (g : Guard) (body : Nat)
    (mk : Guard → BitVec 5 → Option (BitVec 6) → Option (BitVec 6) → Option (BitVec 6) → Timing → Instr) : Dec :=
  match unpackFields [22, 5, 6, 6, 6, 1, 1, 1, 5] body with
  | [tm, sr, rm, km, nm, rn, kn, nn, z] =>
    decE (z == 0) tm ((rn == 0 || rm == 0) && (kn == 0 || km == 0) && (nn == 0 || nm == 0))
      (mk g (.ofNat 5 sr) (maskOf (rn == 1) rm) (maskOf (kn == 1) km) (maskOf (nn == 1) nm))
  | _ => .error .zeroBits

def decA (op : Nat) (g : Guard) (body : Nat) : Dec :=
  match op with
  | 0x01 =>
    match unpackFields [1, 52] body with
    | [0, z] => decIf (z == 0) true (.amodeNorm g)
    | [_, z] => decIf (z == 0) true (.amodeSplit g)
    | _ => .error .zeroBits
  | 0x02 =>
    match unpackFields [22, 9, 1, 4, 4, 13] body with
    | [tm, sl, pl, cb, t, z] => decE (z == 0) tm true (.wload g (.ofNat 9 sl) (pl == 1) (.ofNat 4 cb) (.ofNat 4 t))
    | _ => .error .zeroBits
  | 0x03 =>
    match unpackFields [22, 6, 2, 1, 4, 8, 1, 9] body with
    | [tm, n, h, pl, t, ob, 0, z] =>
      decE (z == 0) tm (decide (n ≤ 48)) (.wloadg g (.ofNat 6 n) (.ofNat 2 h) (pl == 1) (.ofNat 4 t) (.ofNat 8 ob))
    | [tm, n, h, pl, t, ob, _, z] =>
      decE (z == 0) tm (t == 0 && ob == 0) (.wloadgImg g (.ofNat 6 n) (.ofNat 2 h) (pl == 1))
    | _ => .error .zeroBits
  | 0x04 => decStream g body .stream
  | 0x05 => decStream g body .streamt
  | 0x06 =>
    match unpackFields [22, 6, 6, 4, 6, 2, 2, 1, 1, 3] body with
    | [tm, d, e0, l0, q, cv, sc, tu, sa, z] =>
      decE (z == 0) tm (decide (q ≤ 47) && decide (sc ≠ 3) && (sa == 0 || decide (cv ≤ 1)))
        (.drain g (.ofNat 6 d) (.ofNat 6 e0) (.ofNat 4 l0) (.ofNat 6 q) (.ofNat 2 cv) (.ofNat 2 sc) (tu == 1) (sa == 1))
    | _ => .error .zeroBits
  | 0x07 =>
    match unpackFields [6, 6, 41] body with
    | [e0, n, z] => decIf (z == 0) (decide (e0 + n ≤ 63)) (.aclr g (.ofNat 6 e0) (.ofNat 6 n))
    | _ => .error .zeroBits
  | 0x08 =>
    match unpackFields [2, 6, 5, 4, 2, 1, 33] body with
    | [0, v, s, e, h, pl, z] => decIf (z == 0) (h == 0 && pl == 0) (.wstore g (.ofNat 6 v) (.ofNat 5 s) (.ofNat 4 e))
    | [1, v, s, e, h, pl, z] => decIf (z == 0) (s == 0) (.wstorePlane g (.ofNat 6 v) (.ofNat 2 h) (pl == 1) (.ofNat 4 e))
    | [_, _, _, _, _, _, z] => if z = 0 then .error .operand else .error .zeroBits
    | _ => .error .zeroBits
  | 0x09 =>
    match unpackFields [2, 4, 8, 8, 6, 25] body with
    | [0, cb, f, c, v, z] =>
      decIf (z == 0) (decide (f + c + 1 ≤ 256)) (.cbld g (.ofNat 4 cb) (.ofNat 8 f) (.ofNat 8 c) (.ofNat 6 v))
    | [1, cb, f, c, v, z] => decIf (z == 0) (f == 0 && c == 0) (.cbldRestore g (.ofNat 4 cb) (.ofNat 6 v))
    | [_, _, _, _, _, z] => if z = 0 then .error .operand else .error .zeroBits
    | _ => .error .zeroBits
  | 0x0A =>
    match unpackFields [4, 49] body with
    | [cb, z] => decIf (z == 0) true (.cbflip g (.ofNat 4 cb))
    | _ => .error .zeroBits
  | 0x0B =>
    match unpackFields [4, 6, 4, 39] body with
    | [cb, v, e, z] => decIf (z == 0) true (.cbst g (.ofNat 4 cb) (.ofNat 6 v) (.ofNat 4 e))
    | _ => .error .zeroBits
  | _ => .error .unassigned

/-! ## The M slot (R354, R456) -/

def eaOf (b a an pi : Nat) : Ea := ⟨.ofNat 5 b, .ofNat 4 a, an == 1, pi == 1⟩

/-- FVE and FV (R460, R461). -/
def fvOf (fve fv : Nat) : Option (BitVec 6) := if fve = 1 then some (.ofNat 6 fv) else none
def fvRange (fve fv : Nat) : Bool := fve == 1 || fv == 0

/-- Zero bits first, then the limits the term itself carries. -/
def decM (zeros range : Bool) (i : Instr) : Dec := decIf zeros (range && i.wf) i

def decHint (g : Guard) (body : Nat) : Dec :=
  match unpackFields [4, 5, 4, 1, 1, 8, 1, 4, 25] body with
  | [k, b, a, an, pi, c, eve, e, z] =>
    let ea := eaOf b a an pi
    let ev : Option (BitVec 4) := if eve = 1 then some (.ofNat 4 e) else none
    let ok := eve == 1 || e == 0
    match k with
    | 0 => decM (z == 0) ok (.hintReq g ea (.ofNat 8 c) ev)
    | 1 => decM (z == 0) ok (.hintFill g ea (.ofNat 8 c) ev)
    | 2 => decM (z == 0) ok (.hintDrop g ea (.ofNat 8 c) ev)
    | 3 => decM (z == 0) ok (.hintL2 g ea (.ofNat 8 c) ev)
    | _ => if z = 0 then .error .operand else .error .zeroBits
  | _ => .error .zeroBits

def decMesh (g : Guard) (body : Nat) (mk : Guard → BitVec 2 → MeshPay → Timing → Instr) : Dec :=
  match unpackFields [22, 2, 1, 6, 22] body with
  | [tm, p, 0, v, z] => decE (z == 0) tm true (mk g (.ofNat 2 p) (.tile (.ofNat 6 v)))
  | [tm, p, _, v, z] => decE (z == 0 && v % 2 == 0) tm true (mk g (.ofNat 2 p) (.lines (.ofNat 5 (v / 2))))
  | _ => .error .zeroBits

def decLink (g : Guard) (body : Nat) (mk : Guard → BitVec 5 → BitVec 5 → BitVec 4 → Timing → Instr) : Dec :=
  match unpackFields [22, 5, 5, 4, 17] body with
  | [tm, dr, d, e, z] => decE (z == 0) tm true (mk g (.ofNat 5 dr) (.ofNat 5 d) (.ofNat 4 e))
  | _ => .error .zeroBits

def decImage (g : Guard) (body : Nat) (ctx : Guard → BitVec 2 → BitVec 5 → BitVec 4 → Instr)
    (tile : Guard → BitVec 5 → BitVec 4 → Instr) (blk : Guard → BitVec 5 → BitVec 5 → BitVec 4 → Instr)
    (code : Guard → BitVec 5 → BitVec 4 → Instr) : Dec :=
  match unpackFields [2, 2, 5, 5, 4, 35] body with
  | [md, c, gs, dr, e, z] =>
    let z := z == 0
    let gs : BitVec 5 := .ofNat 5 gs
    let e : BitVec 4 := .ofNat 4 e
    match md with
    | 0 => decIf z (dr == 0) (ctx g (.ofNat 2 c) gs e)
    | 1 => decIf z (c == 0 && dr == 0) (tile g gs e)
    | 2 => decIf z (c == 0) (blk g gs (.ofNat 5 dr) e)
    | _ => decIf z (c == 0 && dr == 0) (code g gs e)
  | _ => .error .zeroBits

def decMSlot (op : Nat) (g : Guard) (body : Nat) : Dec :=
  match op with
  | 0x01 =>
    match unpackFields [5, 5, 4, 1, 1, 1, 2, 1, 4, 1, 6, 22] body with
    | [d, b, a, an, pi, sp, z, sx, e, fve, fv, zz] =>
      decM (zz == 0) (fvRange fve fv)
        (.lds g (.ofNat 5 d) (eaOf b a an pi) (sp == 1) (.ofNat 2 z) (sx == 1) (.ofNat 4 e) (fvOf fve fv))
    | _ => .error .zeroBits
  | 0x02 =>
    match unpackFields [5, 5, 4, 1, 1, 1, 2, 1, 4, 1, 6, 22] body with
    | [d, b, a, an, pi, sp, z, sx, e, fve, fv, zz] =>
      decM (zz == 0 && sx == 0) (fvRange fve fv)
        (.sts g (.ofNat 5 d) (eaOf b a an pi) (sp == 1) (.ofNat 2 z) (.ofNat 4 e) (fvOf fve fv))
    | _ => .error .zeroBits
  | 0x03 =>
    match unpackFields [6, 5, 4, 1, 1, 1, 5, 4, 1, 6, 1, 18] body with
    | [v, b, a, an, pi, sp, p, e, fve, fv, lu, zz] =>
      decM (zz == 0) (fvRange fve fv)
        (.tld g (.ofNat 6 v) (eaOf b a an pi) (sp == 1) (.ofNat 5 p) (.ofNat 4 e) (fvOf fve fv) (lu == 1))
    | _ => .error .zeroBits
  | 0x04 =>
    match unpackFields [6, 5, 4, 1, 1, 1, 5, 4, 1, 6, 1, 18] body with
    | [v, b, a, an, pi, sp, p, e, fve, fv, lu, zz] =>
      decM (zz == 0 && lu == 0) (fvRange fve fv)
        (.tst g (.ofNat 6 v) (eaOf b a an pi) (sp == 1) (.ofNat 5 p) (.ofNat 4 e) (fvOf fve fv))
    | _ => .error .zeroBits
  | 0x05 =>
    match unpackFields [5, 5, 4, 1, 1, 1, 4, 5, 5, 4, 1, 6, 11] body with
    | [d, b, a, an, pi, z, opc, s1, s2, e, fve, fv, zz] =>
      decM (zz == 0) (fvRange fve fv)
        (.atom g (.ofNat 5 d) (eaOf b a an pi) (z == 1) (.ofNat 4 opc) (.ofNat 5 s1) (.ofNat 5 s2) (.ofNat 4 e) (fvOf fve fv))
    | _ => .error .zeroBits
  | 0x06 =>
    match unpackFields [6, 5, 4, 1, 1, 5, 3, 4, 1, 6, 17] body with
    | [v, b, a, an, pi, p, opc, e, fve, fv, zz] =>
      decM (zz == 0) (fvRange fve fv)
        (.atomt g (.ofNat 6 v) (eaOf b a an pi) (.ofNat 5 p) (.ofNat 3 opc) (.ofNat 4 e) (fvOf fve fv))
    | _ => .error .zeroBits
  | 0x07 =>
    match unpackFields [2, 1, 4, 4, 3, 5, 13, 21] body with
    | [k, 1, ssz, gsz, ds, gs, sl, z] =>
      decIf (z == 0) true (.stash g (.ofNat 2 k) (.ofNat 4 ssz) (.ofNat 4 gsz) (.ofNat 3 ds) (.ofNat 5 gs) (.ofNat 13 sl))
    | [k, _, ssz, gsz, ds, gs, sl, z] =>
      decIf (z == 0) (ssz == 0 && gsz == 0 && ds == 0 && gs == 0 && sl == 0) (.stashOff g (.ofNat 2 k))
    | _ => .error .zeroBits
  | 0x08 => decHint g body
  | 0x09 =>
    match unpackFields [5, 2, 2, 4, 1, 5, 34] body with
    | [dr, ss, ds, e, ui, d, z] =>
      decIf (z == 0) true (.cpy g (.ofNat 5 dr) (.ofNat 2 ss) (.ofNat 2 ds) (.ofNat 4 e) (ui == 1) (.ofNat 5 d))
    | _ => .error .zeroBits
  | 0x0A =>
    match unpackFields [1, 6, 5, 5, 4, 1, 5, 26] body with
    | [0, v, dr, i, e, ui, d, z] =>
      decIf (z == 0) true (.cpyzSt g (.ofNat 6 v) (.ofNat 5 dr) (.ofNat 5 i) (.ofNat 4 e) (ui == 1) (.ofNat 5 d))
    | [_, v, dr, i, e, ui, d, z] =>
      decIf (z == 0) true (.cpyzLd g (.ofNat 6 v) (.ofNat 5 dr) (.ofNat 5 i) (.ofNat 4 e) (ui == 1) (.ofNat 5 d))
    | _ => .error .zeroBits
  | 0x0B => decMesh g body .msend
  | 0x0C => decMesh g body .mrecv
  | 0x0D => decLink g body .lsend
  | 0x0E => decLink g body .lrecv
  | 0x0F => decLink g body .lred
  | 0x10 => decLink g body .lbcst
  | 0x11 =>
    match unpackFields [5, 5, 4, 39] body with
    | [c, a, e, z] => decM (z == 0) true (.bcall g (.ofNat 5 c) (.ofNat 5 a) (.ofNat 4 e))
    | _ => .error .zeroBits
  | 0x12 =>
    match unpackFields [5, 5, 4, 39] body with
    | [x, y, e, z] => decM (z == 0) true (.fence g (.ofNat 5 x) (.ofNat 5 y) (.ofNat 4 e))
    | _ => .error .zeroBits
  | 0x13 => decIf (body == 0) true (.vjoin g)
  | 0x14 =>
    match unpackFields [2, 5, 5, 4, 37] body with
    | [0, gs, n, e, z] => decIf (z == 0) true (.tlbinv g (.ofNat 5 gs) (.ofNat 5 n) (.ofNat 4 e))
    | [1, gs, n, e, z] => decIf (z == 0) (n == 0) (.tlbinvDie g (.ofNat 5 gs) (.ofNat 4 e))
    | [_, _, _, _, z] => if z = 0 then .error .operand else .error .zeroBits
    | _ => .error .zeroBits
  | 0x15 => decImage g body .csaveCtx .csaveTile .csaveBlk .csaveCode
  | 0x16 => decImage g body .cloadCtx .cloadTile .cloadBlk .cloadCode
  | _ => .error .unassigned

/-! ## Containers and bundles (R338 to R341) -/

/-- A 64-bit container: OP, GUARD and body (R341). -/
def decodeSlot (sl : Slot) (c : Nat) : Dec :=
  match sl with
  | .g =>
    match unpackFields [5, 4, 39] c with
    | [op, gd, body] => decG op (guardOf gd) body
    | _ => .error .unassigned
  | _ =>
    match unpackFields [7, 4, 53] c with
    | [op, gd, body] =>
      match sl with
      | .a => decA op (guardOf gd) body
      | .v0 => decVSlot false op (guardOf gd) body
      | .v1 => decVSlot true op (guardOf gd) body
      | .m => decMSlot op (guardOf gd) body
      | _ => decS op (guardOf gd) body
    | _ => .error .unassigned

/-- The container of a slot within a bundle (R338). -/
def containerOf (n : Nat) : Slot → Nat
  | .a => fld n 304 64
  | .v0 => fld n 240 64
  | .v1 => fld n 176 64
  | .m => fld n 112 64
  | .s => fld n 48 64
  | .g => fld n 0 48

/-- The presence bit of a slot (R339). -/
def presentBit : Slot → Nat
  | .a => 380
  | .v0 => 379
  | .v1 => 378
  | .m => 377
  | .s => 376
  | .g => 375

/-- The slots in the order of the checks of R324. -/
def slotOrder : List Slot := [.a, .v0, .v1, .m, .s, .g]

/-- The present slots of a bundle with what their containers decode to. -/
def decodeSlots (n : Nat) : List (Slot × Dec) :=
  (slotOrder.filter (fun sl => bitAt n (presentBit sl))).map (fun sl => (sl, decodeSlot sl (containerOf n sl)))

/-- A 384-bit bundle: a malformed header (R339, R356), or its present slots. -/
def decodeBundle (n : Nat) : Except DecodeError (List (Slot × Dec)) :=
  if fld n 381 3 != 0 || fld n 368 7 != 0 then .error .header else .ok (decodeSlots n)

/-- The one step a bundle of at most one slot stands for. -/
def decodeOne (n : Nat) : Dec :=
  match decodeBundle n with
  | .error e => .error e
  | .ok [] => .ok .emptyBundle
  | .ok ((_, d) :: _) => d

/-- The instruction read from the 48 bytes of a bundle, as a dictionary entry stores them (R178). -/
def decodeBytes (bs : List Byte) : Dec := decodeOne (leNat (bytesAt bs 0 48))

/-- The host's way in: an instruction whose bits are `w`.  The table of this hardware numbers no bits; an instruction
is stored as its bundle, 24 halfwords, the first word of which holds bits [15:0] (R178). -/
def decodeTableWord (_nbits w : Nat) : Option Instr :=
  match decodeBytes (leBytes 48 w) with
  | .ok i => some i
  | .error _ => none

/-! ## The encoder -/

def bn {w : Nat} (v : BitVec w) : Nat := v.toNat

/-- A body of an S, V, A or M container from its fields. -/
def container (op : Nat) (g : Guard) (body : List (Nat × Nat)) : Nat :=
  packFields [(7, op), (4, guardCode g), (53, packFields body)]

def containerG (op : Nat) (g : Guard) (body : List (Nat × Nat)) : Nat :=
  packFields [(5, op), (4, guardCode g), (39, packFields body)]

def encSrc : VSrc → Nat
  | .tile h n => packFields [(1, b2n h), (2, 0), (6, bn n)]
  | .queue h n => packFields [(1, b2n h), (2, 1), (6, bn n)]
  | .held => packFields [(1, 0), (2, 2), (6, 0)]

def encOp : VOp → Nat
  | .src v => encSrc v
  | .scalar s => bn s

def opIsScalar : VOp → Bool
  | .src _ => false
  | .scalar _ => true

def encTiming : Timing → Nat
  | .now => packFields [(1, 1), (1, 0), (20, 0)]
  | .reg s => packFields [(1, 0), (1, 1), (20, bn s)]
  | .start s => packFields [(1, 0), (1, 0), (20, bn s)]

def encSA (op : Nat) (g : Guard) (d a b : BitVec 5) : Slot × Nat :=
  (.s, container op g [(5, bn d), (5, bn a), (1, 0), (42, bn b * 2 ^ 37)])
def encSI (op : Nat) (g : Guard) (d a : BitVec 5) (imm : BitVec 42) : Slot × Nat :=
  (.s, container op g [(5, bn d), (5, bn a), (1, 1), (42, bn imm)])
def encSB (op : Nat) (g : Guard) (a cc ind tg : Nat) : Slot × Nat :=
  (.s, container op g [(5, a), (4, cc), (1, ind), (15, tg), (28, 0)])
def encSK (op : Nat) (g : Guard) (k : Nat) : Slot × Nat := (.s, container op g [(16, k), (37, 0)])
def encSX (op : Nat) (g : Guard) (sd sl md imm : Nat) : Slot × Nat :=
  (.s, container op g [(5, sd), (12, sl), (4, md), (32, imm)])

def vSlot (h : VHdr) : Slot := if h.v1 then .v1 else .v0

/-- A V container from its fields (R348, R408). -/
def encV (op : Nat) (h : VHdr) (d a b c : Nat) (rf : Nat) (sat sbs scs : Bool) (opx : Nat) : Slot × Nat :=
  (vSlot h, container op h.g
    [(6, d), (9, a), (9, b), (9, c), (2, rf), (1, b2n sat), (1, b2n sbs), (1, b2n scs), (15, opx)])

def encVBin (op : Nat) (h : VHdr) (d : BitVec 6) (a : VSrc) (b : VOp) (rf : BitVec 2) (sat : Bool) : Slot × Nat :=
  encV op h (bn d) (encSrc a) (encOp b) 0 (bn rf) sat (opIsScalar b) false 0
def encVLog (op : Nat) (h : VHdr) (d : BitVec 6) (a : VSrc) (b : VOp) : Slot × Nat :=
  encV op h (bn d) (encSrc a) (encOp b) 0 0 false (opIsScalar b) false 0
def encVUn (op : Nat) (h : VHdr) (d : BitVec 6) (a : VSrc) (rf : BitVec 2) (sat : Bool) : Slot × Nat :=
  encV op h (bn d) (encSrc a) 0 0 (bn rf) sat false false 0
def encVAmt (op : Nat) (h : VHdr) (d : BitVec 6) (a : VSrc) (n : VAmt) : Slot × Nat :=
  match n with
  | .imm k => encV op h (bn d) (encSrc a) 0 0 0 false false false (bn k)
  | .scalar s => encV op h (bn d) (encSrc a) (bn s) 0 0 false true false 0
def encVRed (op : Nat) (h : VHdr) (d : BitVec 6) (a : VSrc) (o : BitVec 2) (bc : Bool) (rf : BitVec 2) (sat : Bool) :
    Slot × Nat :=
  encV op h (bn d) (encSrc a) 0 0 (bn rf) sat false false (4 * b2n bc + bn o)

def encMask (m : Option (BitVec 6)) : Nat := match m with | none => 0 | some v => bn v
def encNone (m : Option (BitVec 6)) : Nat := match m with | none => 1 | some _ => 0

def encStream (op : Nat) (g : Guard) (sr : BitVec 5) (rm km nm : Option (BitVec 6)) (tm : Timing) : Slot × Nat :=
  (.a, container op g [(22, encTiming tm), (5, bn sr), (6, encMask rm), (6, encMask km), (6, encMask nm),
    (1, encNone rm), (1, encNone km), (1, encNone nm), (5, 0)])

def encFve (fv : Option (BitVec 6)) : Nat := match fv with | none => 0 | some _ => 1

def encEv (ev : Option (BitVec 4)) : Nat := match ev with | none => 0 | some e => bn e
def encEve (ev : Option (BitVec 4)) : Nat := match ev with | none => 0 | some _ => 1

def encHint (g : Guard) (k : Nat) (ea : Ea) (cnt : Byte) (ev : Option (BitVec 4)) : Slot × Nat :=
  (.m, container 0x08 g [(4, k), (5, bn ea.b), (4, bn ea.a), (1, b2n ea.an), (1, b2n ea.pi), (8, bn cnt),
    (1, encEve ev), (4, encEv ev), (25, 0)])

def encMesh (op : Nat) (g : Guard) (p : BitVec 2) (pay : MeshPay) (tm : Timing) : Slot × Nat :=
  match pay with
  | .tile v => (.m, container op g [(22, encTiming tm), (2, bn p), (1, 0), (6, bn v), (22, 0)])
  | .lines dr => (.m, container op g [(22, encTiming tm), (2, bn p), (1, 1), (6, 2 * bn dr), (22, 0)])

def encLink (op : Nat) (g : Guard) (dr d : BitVec 5) (e : BitVec 4) (tm : Timing) : Slot × Nat :=
  (.m, container op g [(22, encTiming tm), (5, bn dr), (5, bn d), (4, bn e), (17, 0)])

def encImage (op : Nat) (g : Guard) (md c gs dr e : Nat) : Slot × Nat :=
  (.m, container op g [(2, md), (2, c), (5, gs), (5, dr), (4, e), (35, 0)])

/-- The slot and container of an instruction; an event of the package has none. -/
def encodeSlot : Instr → Option (Slot × Nat)
  | .addReg g d a b => some (encSA 0x01 g d a b)
  | .addImm g d a i => some (encSI 0x01 g d a i)
  | .subReg g d a b => some (encSA 0x02 g d a b)
  | .subImm g d a i => some (encSI 0x02 g d a i)
  | .mulReg g d a b => some (encSA 0x03 g d a b)
  | .mulImm g d a i => some (encSI 0x03 g d a i)
  | .mulhReg g d a b => some (encSA 0x04 g d a b)
  | .mulhImm g d a i => some (encSI 0x04 g d a i)
  | .andReg g d a b => some (encSA 0x05 g d a b)
  | .andImm g d a i => some (encSI 0x05 g d a i)
  | .orReg g d a b => some (encSA 0x06 g d a b)
  | .orImm g d a i => some (encSI 0x06 g d a i)
  | .xorReg g d a b => some (encSA 0x07 g d a b)
  | .xorImm g d a i => some (encSI 0x07 g d a i)
  | .shlReg g d a b => some (encSA 0x08 g d a b)
  | .shlImm g d a i => some (encSI 0x08 g d a i)
  | .shrReg g d a b => some (encSA 0x09 g d a b)
  | .shrImm g d a i => some (encSI 0x09 g d a i)
  | .sraReg g d a b => some (encSA 0x0A g d a b)
  | .sraImm g d a i => some (encSI 0x0A g d a i)
  | .minReg g d a b => some (encSA 0x0B g d a b)
  | .minImm g d a i => some (encSI 0x0B g d a i)
  | .maxReg g d a b => some (encSA 0x0C g d a b)
  | .maxImm g d a i => some (encSI 0x0C g d a i)
  | .bitc g d a fn => some (.s, container 0x0D g [(5, bn d), (5, bn a), (6, bn fn), (37, 0)])
  | .li g d imm => some (.s, container 0x0E g [(5, bn d), (48, bn imm)])
  | .cmpReg g pd cc a b =>
    some (.s, container 0x0F g [(3, bn pd), (1, 0), (4, bn cc), (5, bn a), (1, 0), (39, bn b * 2 ^ 34)])
  | .cmpImm g pd cc a imm => some (.s, container 0x0F g [(3, bn pd), (1, 0), (4, bn cc), (5, bn a), (1, 1), (39, bn imm)])
  | .plog g pd tt pa pb =>
    some (.s, container 0x10 g [(3, bn pd), (1, 0), (4, bn tt), (4, guardCode pa), (4, guardCode pb), (37, 0)])
  | .sel g d ps a b => some (.s, container 0x11 g [(5, bn d), (5, bn a), (5, bn b), (4, guardCode ps), (34, 0)])
  | .br g cc a tg => some (encSB 0x12 g (bn a) (bn cc) 0 (bn tg))
  | .jmpLabel g tg => some (encSB 0x13 g 0 0 0 (bn tg))
  | .jmpReg g a => some (encSB 0x13 g (bn a) 0 1 0)
  | .callLabel g tg => some (encSB 0x14 g 0 0 0 (bn tg))
  | .callReg g a => some (encSB 0x14 g (bn a) 0 1 0)
  | .ret g a => some (encSB 0x15 g (bn a) 0 1 0)
  | .loopReg g a e => some (.s, container 0x16 g [(5, bn a), (1, 0), (16, 0), (15, bn e), (16, 0)])
  | .loopImm g n e => some (.s, container 0x16 g [(5, 0), (1, 1), (16, bn n), (15, bn e), (16, 0)])
  | .lbrk g k => some (encSK 0x17 g (bn k))
  | .waitImm g e imm => some (encSX 0x18 g 0 (bn e) 0 (bn imm))
  | .waitReg g e s => some (encSX 0x18 g (bn s) (bn e) 1 0)
  | .waitTcyc g s => some (encSX 0x18 g (bn s) 0 2 0)
  | .phase g sl => some (encSX 0x19 g 0 (bn sl) 0 0)
  | .pass g d req => some (encSX 0x1A g (bn d) 0 0 (bn req))
  | .passCycleReg g d req s => some (encSX 0x1A g (bn d) (bn s) 1 (bn req))
  | .yield g => some (encSK 0x1B g 0)
  | .yieldField g => some (encSK 0x1B g 1)
  | .view g t s => some (encSX 0x1C g (bn s) (bn t) 0 0)
  | .viewCopy g t m => some (encSX 0x1C g 0 (bn t) 1 (bn m))
  | .viewBase g t s imm => some (encSX 0x1C g (bn s) (bn t) 2 (bn imm))
  | .viewGen g t gen => some (encSX 0x1C g 0 (bn t) 3 (bn gen))
  | .gets g d sl => some (encSX 0x1D g (bn d) (bn sl) 0 0)
  | .setsReg g sl s => some (encSX 0x1E g (bn s) (bn sl) 0 0)
  | .setsImm g sl imm => some (encSX 0x1E g 0 (bn sl) 1 (bn imm))
  | .setsOr g sl imm => some (encSX 0x1E g 0 (bn sl) 2 (bn imm))
  | .setsClr g sl imm => some (encSX 0x1E g 0 (bn sl) 3 (bn imm))
  | .trap g k => some (encSK 0x1F g (bn k))
  | .tret g => some (encSK 0x20 g 0)
  | .uiret g => some (encSK 0x21 g 0)
  | .done g => some (encSK 0x22 g 0)
  | .aaddReg g d a s => some (.g, containerG 0x01 g [(4, bn d), (4, bn a), (1, 0), (30, bn s * 2 ^ 25)])
  | .aaddImm g d a imm => some (.g, containerG 0x01 g [(4, bn d), (4, bn a), (1, 1), (30, bn imm)])
  | .ali g d imm => some (.g, containerG 0x02 g [(4, bn d), (32, bn imm), (3, 0)])
  | .amovToA g a s => some (.g, containerG 0x03 g [(1, 0), (4, bn a), (5, bn s), (29, 0)])
  | .amovToS g s a => some (.g, containerG 0x03 g [(1, 1), (4, bn a), (5, bn s), (29, 0)])
  | .acfgLin g a inc => some (.g, containerG 0x04 g [(4, bn a), (2, 0), (5, 0), (16, bn inc), (12, 0)])
  | .acfgMod g a s inc => some (.g, containerG 0x04 g [(4, bn a), (2, 1), (5, bn s), (16, bn inc), (12, 0)])
  | .acfgBrev g a s inc => some (.g, containerG 0x04 g [(4, bn a), (2, 2), (5, bn s), (16, bn inc), (12, 0)])
  | .lidx g a t s => some (.g, containerG 0x05 g [(5, bn s), (6, bn t), (4, bn a), (24, 0)])
  | .pf g q t => some (.g, containerG 0x06 g [(3, bn q), (6, bn t), (30, 0)])
  | .vadd h d a b rf sat => some (encVBin 0x01 h d a b rf sat)
  | .vsub h d a b rf sat => some (encVBin 0x02 h d a b rf sat)
  | .vmul h d a b rf sat => some (encVBin 0x03 h d a b rf sat)
  | .vfma h d a b c rf sat =>
    some (encV 0x04 h (bn d) (encSrc a) (encOp b) (encOp c) (bn rf) sat (opIsScalar b) (opIsScalar c) 0)
  | .vmin h d a b => some (encVLog 0x05 h d a b)
  | .vmax h d a b => some (encVLog 0x06 h d a b)
  | .vdiv h d a b rf sat => some (encVBin 0x07 h d a b rf sat)
  | .vsqrt h d a rf sat => some (encVUn 0x08 h d a rf sat)
  | .vrsq h d a rf sat => some (encVUn 0x09 h d a rf sat)
  | .vexp2 h d a rf sat => some (encVUn 0x0A h d a rf sat)
  | .vlog2 h d a rf sat => some (encVUn 0x0B h d a rf sat)
  | .vcvt h d a rf sat => some (encVUn 0x14 h d a rf sat)
  | .vmov h d a => some (encV 0x13 h (bn d) (encSrc a) 0 0 0 false false false 0)
  | .vsplat h d s rf sat => some (encV 0x15 h (bn d) (bn s) 0 0 (bn rf) sat false false 0)
  | .vsel h d m a b => some (encV 0x12 h (bn d) (encSrc m) (encOp a) (encOp b) 0 false (opIsScalar a) (opIsScalar b) 0)
  | .vand h d a b => some (encVLog 0x0C h d a b)
  | .vor h d a b => some (encVLog 0x0D h d a b)
  | .vxor h d a b => some (encVLog 0x0E h d a b)
  | .vshlTile h d a b sat => some (encV 0x0F h (bn d) (encSrc a) (encSrc b) 0 0 sat false false 0)
  | .vshlScalar h d a s sat => some (encV 0x0F h (bn d) (encSrc a) (bn s) 0 0 sat true false 0)
  | .vshlImm h d a n sat => some (encV 0x0F h (bn d) (encSrc a) 0 0 0 sat false false (2 ^ 14 + bn n))
  | .vshrTile h d a b u => some (encV 0x10 h (bn d) (encSrc a) (encSrc b) 0 0 false false false (2 ^ 13 * b2n u))
  | .vshrScalar h d a s u => some (encV 0x10 h (bn d) (encSrc a) (bn s) 0 0 false true false (2 ^ 13 * b2n u))
  | .vshrImm h d a n u => some (encV 0x10 h (bn d) (encSrc a) 0 0 0 false false false (2 ^ 14 + 2 ^ 13 * b2n u + bn n))
  | .vcmp h d a b cc => some (encV 0x11 h (bn d) (encSrc a) (encOp b) 0 0 false (opIsScalar b) false (bn cc))
  | .vmskPre h d n => some (encV 0x20 h (bn d) 0 0 0 0 false false false (bn n))
  | .vmskRect h d nr nc => some (encV 0x20 h (bn d) 0 0 0 0 false false false (2 ^ 13 + 128 * bn nr + bn nc))
  | .vmskRng h d s => some (encV 0x20 h (bn d) 0 (bn s) 0 0 false true false (2 ^ 14))
  | .vpop h d a => some (encV 0x21 h (bn d) (encSrc a) 0 0 0 false false false 0)
  | .vextImm h d a k => some (encV 0x16 h (bn d) (encSrc a) 0 0 0 false false false (bn k))
  | .vextReg h d a s => some (encV 0x16 h (bn d) (encSrc a) (bn s) 0 0 false true false 0)
  | .vrotr h d a n => some (encVAmt 0x17 h d a n)
  | .vrotc h d a n => some (encVAmt 0x18 h d a n)
  | .vbcr h d a n => some (encVAmt 0x19 h d a n)
  | .vbcc h d a n => some (encVAmt 0x1A h d a n)
  | .vshuf h d a b => some (encV 0x22 h (bn d) (encSrc a) (encSrc b) 0 0 false false false 0)
  | .vredr h d a o bc rf sat => some (encVRed 0x1B h d a o bc rf sat)
  | .vredc h d a o bc rf sat => some (encVRed 0x1C h d a o bc rf sat)
  | .vshpType h d ty r c =>
    some (encV 0x1F h (bn d) 0 0 0 0 false false false (packFields [(1, 0), (4, bn ty), (4, bn r), (6, bn c)]))
  | .vshpKeep h d r c =>
    some (encV 0x1F h (bn d) 0 0 0 0 false false false (packFields [(1, 1), (4, 0), (4, bn r), (6, bn c)]))
  | .vshpReg h d s => some (encV 0x1F h (bn d) 0 (bn s) 0 0 false true false 0)
  | .vqlt h d a cb nt sr =>
    some (encV 0x1D h (bn d) (encSrc a) 0 0 0 false false false (bn cb + 16 * bn nt + 64 * b2n sr))
  | .vqltOffsets h d a b cb nt sr =>
    some (encV 0x1D h (bn d) (encSrc a) (encSrc b) 0 0 false false false (bn cb + 16 * bn nt + 64 * b2n sr + 128))
  | .vboff h d a cb => some (encV 0x1E h (bn d) (encSrc a) 0 0 0 false false false (bn cb))
  | .amodeNorm g => some (.a, container 0x01 g [(1, 0), (52, 0)])
  | .amodeSplit g => some (.a, container 0x01 g [(1, 1), (52, 0)])
  | .wload g sl pl cb t tm =>
    some (.a, container 0x02 g [(22, encTiming tm), (9, bn sl), (1, b2n pl), (4, bn cb), (4, bn t), (13, 0)])
  | .wloadg g n h pl t ob tm =>
    some (.a, container 0x03 g
      [(22, encTiming tm), (6, bn n), (2, bn h), (1, b2n pl), (4, bn t), (8, bn ob), (1, 0), (9, 0)])
  | .wloadgImg g n h pl tm =>
    some (.a, container 0x03 g [(22, encTiming tm), (6, bn n), (2, bn h), (1, b2n pl), (4, 0), (8, 0), (1, 1), (9, 0)])
  | .stream g sr rm km nm tm => some (encStream 0x04 g sr rm km nm tm)
  | .streamt g sr rm km nm tm => some (encStream 0x05 g sr rm km nm tm)
  | .drain g d e0 l0 q cv sc tu sa tm =>
    some (.a, container 0x06 g [(22, encTiming tm), (6, bn d), (6, bn e0), (4, bn l0), (6, bn q), (2, bn cv), (2, bn sc),
      (1, b2n tu), (1, b2n sa), (3, 0)])
  | .aclr g e0 n => some (.a, container 0x07 g [(6, bn e0), (6, bn n), (41, 0)])
  | .wstore g v s e => some (.a, container 0x08 g [(2, 0), (6, bn v), (5, bn s), (4, bn e), (2, 0), (1, 0), (33, 0)])
  | .wstorePlane g v h pl e =>
    some (.a, container 0x08 g [(2, 1), (6, bn v), (5, 0), (4, bn e), (2, bn h), (1, b2n pl), (33, 0)])
  | .cbld g cb f c v => some (.a, container 0x09 g [(2, 0), (4, bn cb), (8, bn f), (8, bn c), (6, bn v), (25, 0)])
  | .cbldRestore g cb v => some (.a, container 0x09 g [(2, 1), (4, bn cb), (8, 0), (8, 0), (6, bn v), (25, 0)])
  | .cbflip g cb => some (.a, container 0x0A g [(4, bn cb), (49, 0)])
  | .cbst g cb v e => some (.a, container 0x0B g [(4, bn cb), (6, bn v), (4, bn e), (39, 0)])
  | .lds g d ea sp z sx e fv =>
    some (.m, container 0x01 g [(5, bn d), (5, bn ea.b), (4, bn ea.a), (1, b2n ea.an), (1, b2n ea.pi), (1, b2n sp),
      (2, bn z), (1, b2n sx), (4, bn e), (1, encFve fv), (6, encMask fv), (22, 0)])
  | .sts g d ea sp z e fv =>
    some (.m, container 0x02 g [(5, bn d), (5, bn ea.b), (4, bn ea.a), (1, b2n ea.an), (1, b2n ea.pi), (1, b2n sp),
      (2, bn z), (1, 0), (4, bn e), (1, encFve fv), (6, encMask fv), (22, 0)])
  | .tld g v ea sp p e fv lu =>
    some (.m, container 0x03 g [(6, bn v), (5, bn ea.b), (4, bn ea.a), (1, b2n ea.an), (1, b2n ea.pi), (1, b2n sp),
      (5, bn p), (4, bn e), (1, encFve fv), (6, encMask fv), (1, b2n lu), (18, 0)])
  | .tst g v ea sp p e fv =>
    some (.m, container 0x04 g [(6, bn v), (5, bn ea.b), (4, bn ea.a), (1, b2n ea.an), (1, b2n ea.pi), (1, b2n sp),
      (5, bn p), (4, bn e), (1, encFve fv), (6, encMask fv), (1, 0), (18, 0)])
  | .atom g d ea z opc s1 s2 e fv =>
    some (.m, container 0x05 g [(5, bn d), (5, bn ea.b), (4, bn ea.a), (1, b2n ea.an), (1, b2n ea.pi), (1, b2n z),
      (4, bn opc), (5, bn s1), (5, bn s2), (4, bn e), (1, encFve fv), (6, encMask fv), (11, 0)])
  | .atomt g v ea p opc e fv =>
    some (.m, container 0x06 g [(6, bn v), (5, bn ea.b), (4, bn ea.a), (1, b2n ea.an), (1, b2n ea.pi),
      (5, bn p), (3, bn opc), (4, bn e), (1, encFve fv), (6, encMask fv), (17, 0)])
  | .stash g k ssz gsz ds gs sl =>
    some (.m, container 0x07 g [(2, bn k), (1, 1), (4, bn ssz), (4, bn gsz), (3, bn ds), (5, bn gs), (13, bn sl), (21, 0)])
  | .stashOff g k => some (.m, container 0x07 g [(2, bn k), (1, 0), (4, 0), (4, 0), (3, 0), (5, 0), (13, 0), (21, 0)])
  | .hintReq g ea c ev => some (encHint g 0 ea c ev)
  | .hintFill g ea c ev => some (encHint g 1 ea c ev)
  | .hintDrop g ea c ev => some (encHint g 2 ea c ev)
  | .hintL2 g ea c ev => some (encHint g 3 ea c ev)
  | .cpy g dr ss ds e ui d =>
    some (.m, container 0x09 g [(5, bn dr), (2, bn ss), (2, bn ds), (4, bn e), (1, b2n ui), (5, bn d), (34, 0)])
  | .cpyzSt g v dr i e ui d =>
    some (.m, container 0x0A g [(1, 0), (6, bn v), (5, bn dr), (5, bn i), (4, bn e), (1, b2n ui), (5, bn d), (26, 0)])
  | .cpyzLd g v dr i e ui d =>
    some (.m, container 0x0A g [(1, 1), (6, bn v), (5, bn dr), (5, bn i), (4, bn e), (1, b2n ui), (5, bn d), (26, 0)])
  | .msend g p pay tm => some (encMesh 0x0B g p pay tm)
  | .mrecv g p pay tm => some (encMesh 0x0C g p pay tm)
  | .lsend g dr d e tm => some (encLink 0x0D g dr d e tm)
  | .lrecv g dr d e tm => some (encLink 0x0E g dr d e tm)
  | .lred g dr d e tm => some (encLink 0x0F g dr d e tm)
  | .lbcst g dr d e tm => some (encLink 0x10 g dr d e tm)
  | .bcall g c a e => some (.m, container 0x11 g [(5, bn c), (5, bn a), (4, bn e), (39, 0)])
  | .fence g x y e => some (.m, container 0x12 g [(5, bn x), (5, bn y), (4, bn e), (39, 0)])
  | .vjoin g => some (.m, container 0x13 g [(53, 0)])
  | .tlbinv g gs n e => some (.m, container 0x14 g [(2, 0), (5, bn gs), (5, bn n), (4, bn e), (37, 0)])
  | .tlbinvDie g gs e => some (.m, container 0x14 g [(2, 1), (5, bn gs), (5, 0), (4, bn e), (37, 0)])
  | .csaveCtx g c gs e => some (encImage 0x15 g 0 (bn c) (bn gs) 0 (bn e))
  | .csaveTile g gs e => some (encImage 0x15 g 1 0 (bn gs) 0 (bn e))
  | .csaveBlk g gs dr e => some (encImage 0x15 g 2 0 (bn gs) (bn dr) (bn e))
  | .csaveCode g gs e => some (encImage 0x15 g 3 0 (bn gs) 0 (bn e))
  | .cloadCtx g c gs e => some (encImage 0x16 g 0 (bn c) (bn gs) 0 (bn e))
  | .cloadTile g gs e => some (encImage 0x16 g 1 0 (bn gs) 0 (bn e))
  | .cloadBlk g gs dr e => some (encImage 0x16 g 2 0 (bn gs) (bn dr) (bn e))
  | .cloadCode g gs e => some (encImage 0x16 g 3 0 (bn gs) 0 (bn e))
  | _ => none

/-- The number of the lowest bundle bit of a slot's container. -/
def slotLow : Slot → Nat
  | .a => 304
  | .v0 => 240
  | .v1 => 176
  | .m => 112
  | .s => 48
  | .g => 0

/-- A bundle that holds one container, with its presence bit set (R338, R339). -/
def bundleOf (sl : Slot) (c : Nat) : Nat := 2 ^ presentBit sl + c * 2 ^ slotLow sl

/-- The bundle of one instruction, as a number; the empty bundle for EMPTY_BUNDLE; none for an event. -/
def encodeNat (i : Instr) : Option Nat :=
  if i = .emptyBundle then some 0 else (encodeSlot i).map (fun p => bundleOf p.1 p.2)

/-- The bundle of several instructions, each of a slot of its own (R338, R339); none where one of them is of no slot, or two share one. -/
def encodeBundle (is : List Instr) : Option Nat :=
  match is with
  | [] => some 0
  | i :: r =>
    match encodeSlot i, encodeBundle r with
    | some (sl, c), some n => if bitAt n (presentBit sl) then none else some (n + bundleOf sl c)
    | _, _ => none

/-- The 24 halfwords of the bundle of an instruction, first the one that holds bits [15:0] (R178). -/
def encode (i : Instr) : Option (List Half) :=
  (encodeNat i).map (fun n => (List.range 24).map (fun j => BitVec.ofNat 16 (n / 2 ^ (16 * j))))

end Sys2Proof
end

