-- ==== Sys2Proof/Machine/Sched.lean ====
section
/-! DEFINITION. The scheduler (R142 to R151): what starts, freezes, resumes and evicts fields; placement and pre-emption; loading,
quiet, saves, restores and completion; placed notices (R162, R163). -/

namespace Sys2Proof.Machine

open Sys2Proof

/-! ## The packets that name fields (R142) -/

/-- The packet that is starting, as its queue and number. -/
def State.pktKey (s : State) : Nat × Nat := (s.pkt.q, s.pkt.id)

/-- LAUNCH: the event condition holds, and the field is a candidate (R142, R143). -/
def execLaunch (s : State) : Out3 :=
  let f := s.pkt.num 4 2
  .next (if (s.field f).state == .waiting && s.live f then
    { s.modField f (fun x => { x with state := .ready }) with decide_ := true } else s)

/-- PARK (R142, R153): completes when the field is parked. -/
def execPark (s : State) : Out3 :=
  let f := s.pkt.num 4 2
  let x := s.field f
  if s.live f && (x.state == .running || x.state == .freezing) then
    .next ((s.modField f (fun x => { x with parkers := x.parkers ++ [s.pktKey] })).requestFreeze f false)
  else .next s.pktDone

/-- RESUME (R142, R156, R491): completes when the field is running; one that names a field that is EVICTED or RESTORING does so when it
has waited for that state, or names a member of a group, and completes at once otherwise. -/
def execResume (s : State) : Out3 :=
  let f := s.pkt.num 4 2
  let x := s.field f
  let wait (s : State) : State := s.modField f (fun x => { x with resumers := x.resumers ++ [s.pktKey] })
  if !s.live f then .next s.pktDone
  else
    .next (match x.state with
      | .parked => (wait s).requestResume f
      | .evicted => if s.pkt.waited || s.grouped f then wait s else s.pktDone
      | .restoring => if s.pkt.waited || s.grouped f then wait s else s.pktDone
      | _ => s.pktDone)

/-- EVICT (R142, R152, R491): completes when the field, or its whole group, is evicted. -/
def execEvict (s : State) : Out3 :=
  let f := s.pkt.num 4 2
  let x := s.field f
  if s.live f && (x.state == .running || x.state == .freezing || x.state == .parked) && (s.groupOf f).all s.poolRoom then
    .next ((s.modField f (fun x => { x with evicters := x.evicters ++ [s.pktKey] })).requestEvict f)
  else .next s.pktDone

/-! ## The order of candidates (R143) -/

/-- Insertion sort by a key, equal keys in their old order. -/
def insertBy (key : Nat → Nat) (x : Nat) : List Nat → List Nat
  | [] => [x]
  | y :: ys => if key x ≤ key y then x :: y :: ys else y :: insertBy key x ys

def sortBy (key : Nat → Nat) : List Nat → List Nat
  | [] => []
  | x :: xs => insertBy key x (sortBy key xs)

/-- The live partner of a field. -/
def State.livePartner (s : State) (f : Nat) : Option Nat := (s.partner f).filter s.live

/-- The partner beside which a READY field is loaded without a fresh fit (R158). -/
def State.hostPartner (s : State) (f : Nat) : Option Nat :=
  if (s.field f).state == .ready then (s.livePartner f).filter (fun p => (s.field p).placed && !(s.field p).state.saving) else none

/-- A field that stands for a candidate: an evicted group by its first member; a READY member of a group that is evicted, or on the
way there or back, is none, nor is one whose partner claims an origin for the group (R151, R158). -/
def State.candidate (s : State) (f : Nat) : Bool :=
  match (s.field f).state with
  | .ready => !(s.livePartner f).any (fun p => (s.field p).state.saving || ((s.field p).state == .ready && (s.field p).claim.isSome))
  | .evicted =>
    !(s.livePartner f).any (fun p => (s.field p).state == .evicting || ((s.field p).state == .evicted && decide (p < f)))
  | _ => false

/-- The fields that a candidate places. -/
def State.candidateFields (s : State) (f : Nat) : List Nat :=
  if (s.field f).state = .evicted then f :: (s.livePartner f).toList.filter (fun p => (s.field p).state == .evicted) else [f]

/-- A field's priority: its queue's PRIO until it is placed, then the one fixed. -/
def State.prioOf (s : State) (f : Nat) : Nat :=
  let x := s.field f
  match x.state with
  | .waiting => (s.queue x.queue).prio
  | .ready => (s.queue x.queue).prio
  | _ => x.prio

/-- A candidate's priority: the higher of an evicted group's members. -/
def State.candidatePrio (s : State) (f : Nat) : Nat := maxNat ((s.candidateFields f).map s.prioOf)

def State.weightOf (s : State) (q : Nat) : Nat := max 1 (s.queue q).weight

/-- READY candidates of one priority by weighted round robin: the queue that holds the turn, then the others in ascending number
after it; each queue's head before any queue's second, and so on. -/
def State.roundRobin (s : State) (fs : List Nat) : List Nat :=
  let fs := sortBy (fun f => (s.field f).order) fs
  let turn (q : Nat) : Nat := if q = s.rrQueue && 0 < s.rrLeft then 0 else if s.rrQueue < q then 1 + q else 1025 + q
  let qs := sortBy turn (distinct (fs.map (fun f => (s.field f).queue)))
  (List.range fs.length).flatMap (fun k => qs.filterMap (fun q => (fs.filter (fun f => (s.field f).queue == q))[k]?))

/-- The candidates in the scheduler's order. -/
def State.candidates (s : State) : List Nat :=
  let cs := (s.fields.map (·.1)).filter s.candidate
  [7, 6, 5, 4, 3, 2, 1, 0].flatMap (fun p =>
    let here := cs.filter (fun f => s.candidatePrio f == p)
    sortBy (fun f => (s.field f).order) (here.filter (fun f => (s.field f).state == .evicted))
      ++ s.roundRobin (here.filter (fun f => (s.field f).state == .ready)))

/-! ## Fitting (R148) -/

/-- The origins that a rectangle may take, in ascending tile number. -/
def Field.origins (x : Field) : List Nat :=
  (List.range 256).filter (fun o =>
    let a := o % 16
    let b := o / 16
    decide (a + x.w ≤ 16) && decide (b + x.h ≤ 16)
      && (if x.small then a / 4 == (a + x.w - 1) / 4 && b / 4 == (b + x.h - 1) / 4 else a % 4 == 0 && b % 4 == 0))

/-- Every tile of the rectangle at an origin is in service. -/
def State.tilesOk (s : State) (x : Field) (o : Nat) : Bool :=
  ({ x with origin := o }).tiles.all (fun t =>
    let y := s.tile t
    !y.retired && y.badRows.isEmpty && y.badCols.isEmpty)

/-- A placed field holds a tile of the rectangle, or a port that the candidate names (R60). -/
def Field.blocks (y x : Field) (o : Nat) : Bool :=
  (meets (o % 16) x.w (y.origin % 16) y.w && meets (o / 16) x.h (y.origin / 16) y.h)
    || (List.range 6).any (fun p => bitAt y.ports p && bitAt x.ports p)

/-- The fields in the way at an origin, once the fields `gone` have left. -/
def State.blockers (s : State) (x : Field) (o : Nat) (gone : List Nat) : List Nat :=
  (s.fields.filter (fun e => e.2.placed && !gone.contains e.1 && e.2.blocks x o)).map (·.1)

/-- The candidate of which `x` is the record may stand at an origin (R148). -/
def State.fitsAt (s : State) (x : Field) (o : Nat) : Bool :=
  s.torus.timed && s.passFits x.pass [] && x.origins.contains o && s.tilesOk x o && (s.blockers x o []).isEmpty

/-- A claim of another candidate, not of lower priority, meets the rectangle or the ports at an origin: what its victims leave is for
it (R151). -/
def State.claimed (s : State) (f : Nat) (x : Field) (o : Nat) : Bool :=
  s.fields.any (fun e => e.1 != f && e.2.state == .ready && decide (s.candidatePrio f ≤ s.prioOf e.1)
    && e.2.claim.any (fun c => ({ e.2 with origin := c.1 } : Field).blocks x o))

/-- The fitting origin with the lowest tile number, beside what claims not of lower priority keep. -/
def State.fits (s : State) (f : Nat) : Option Nat :=
  let x := s.field f
  let kept := (s.fields.filter (fun e => e.1 != f && e.2.state == .ready && e.2.claim.isSome
    && decide (s.candidatePrio f ≤ s.prioOf e.1))).map (fun e => e.2.pass)
  if s.passFits (x.pass + sumNat kept) [] then x.origins.find? (fun o => s.fitsAt x o && !s.claimed f x o) else none

/-! ## Placement (R145, R146, R158, R335) -/

/-- Place a READY field: its priority is fixed, and loading begins. -/
def State.placeReady (s : State) (f o member : Nat) : State :=
  let x := s.field f
  let s := s.modField f (fun y => { y with
    state := .loading, claim := none, prio := (s.queue x.queue).prio, origin := o, member := member, placedAt := s.orders })
  { s with orders := s.orders + 1 }.later s.nextId 1 (.imageLoaded (.ofNat 16 f) [])

/-- Reserve a standing pass (R24). -/
def State.reserve (s : State) (f : Nat) : State :=
  { s with col := { s.col with standing := s.col.standing ++ [(f, (s.field f).pass)] } }

/-- A queue has had a placement in its turn (R143). -/
def State.servedQueue (s : State) (q : Nat) : State :=
  if q = s.rrQueue && 0 < s.rrLeft then { s with rrLeft := s.rrLeft - 1 }
  else { s with rrQueue := q, rrLeft := s.weightOf q - 1 }

/-- Where a tile of a rectangle at one origin lies at another. -/
def movedTile (old new t : Nat) : Nat := 16 * (new / 16 + t / 16 - old / 16) + (new % 16 + t % 16 - old % 16)

/-- An event on a tile of a field that is placed elsewhere now. -/
def movedEvent (old new : Nat) (ev : Instr) : Instr :=
  let m (t : BitVec 8) : BitVec 8 := .ofNat 8 (movedTile old new t.toNat)
  match ev with
  | .passAnswer t h i => .passAnswer (m t) h i
  | .linkTransferStart t i => .linkTransferStart (m t) i
  | .lsendComplete t i => .lsendComplete (m t) i
  | .lrecvComplete t i => .lrecvComplete (m t) i
  | .lredComplete t i => .lredComplete (m t) i
  | .lbcstComplete t i => .lbcstComplete (m t) i
  | .resultLanding t h i => .resultLanding (m t) h i
  | .engineStart t e i => .engineStart (m t) e i
  | .streamRowAdmit t i r => .streamRowAdmit (m t) i r
  | .accumulatorLanding t i r p l => .accumulatorLanding (m t) i r p l
  | .planeWrite t i => .planeWrite (m t) i
  | .drainWrite t i => .drainWrite (m t) i
  | .aclrWrite t i => .aclrWrite (m t) i
  | .meshBeatSend t i b => .meshBeatSend (m t) i b
  | .meshBeatReceive t i b => .meshBeatReceive (m t) i b
  | e => e

/-- Place an evicted field again: its contexts enter the restore service (R335). -/
def State.placeEvicted (s : State) (o f : Nat) : State :=
  let old := (s.field f).origin
  let s := s.modField f (fun x => { x with state := .restoring, origin := o, placedAt := s.orders })
  let s := { s with
    orders := s.orders + 1,
    agenda := s.agenda.map (fun (d : Due) => if d.clk == some f then { d with ev := movedEvent old o d.ev } else d) }
  let x := s.field f
  let s := x.rels.foldl (fun (s : State) r =>
    let (t, h) := x.locate r
    s.modCtx t h (fun c =>
      { c.left with field := some f, num := r % 4, tloc := s.tlocOf x r }.enterService s.now 2)) s
  s.later s.nextId 1 (.restoreComplete (.ofNat 16 f))

/-- Place a candidate at an origin. -/
def State.placeCandidate (s : State) (f o : Nat) : State :=
  let s := s.reserve f
  if (s.field f).state = .evicted then (s.candidateFields f).foldl (fun s g => s.placeEvicted o g) s
  else (s.servedQueue (s.field f).queue).placeReady f o 0

/-- A second group member is loaded beside its partner, whose standing pass and ports it shares, without a fresh fit (R158): also where a
tile has been retired or withheld since (log entry 111). -/
def State.placeSecond (s : State) (f p : Nat) : State :=
  let y := s.field p
  (s.servedQueue (s.field f).queue).placeReady f y.origin (1 - y.member)

/-! ## Pre-emption (R151) -/

/-- A group (or a field alone) that a candidate of priority p may evict. -/
def State.victim (s : State) (p f : Nat) : Bool :=
  let ms := s.groupOf f
  ms.all (fun m =>
    let x := s.field m
    decide (f ≤ m) && (x.state == .running || x.state == .parked) && !x.toEvict && x.span == 0 && s.poolRoom m
      && decide (x.prio < p))

/-- Lowest priority first, and among equal priority the most recently placed. -/
def State.victimKey (s : State) (f : Nat) : Nat :=
  let ms := s.groupOf f
  maxNat (ms.map s.prioOf) * (s.orders + 1) + (s.orders - maxNat (ms.map (fun m => (s.field m).placedAt)))

/-- Release further victims until the standing pass fits. -/
def State.enough (s : State) (units : Nat) : List Nat → List Nat → Option (List Nat)
  | [], out => if s.passFits units (out.flatMap s.groupOf) then some out else none
  | v :: vs, out =>
    if s.passFits units (out.flatMap s.groupOf) then some out else State.enough s units vs (out ++ [v])

/-- The victims to evict so that a candidate can stand at an origin; the save pools hold them all. -/
def State.victimsAt (s : State) (x : Field) (vs : List Nat) (o : Nat) : Option (List Nat) :=
  let bs := s.blockers x o []
  if !s.tilesOk x o || bs.any (fun b => !vs.any (fun v => (s.groupOf v).contains b)) then none
  else
    let must := vs.filter (fun v => (s.groupOf v).any bs.contains)
    (s.enough x.pass (vs.filter (fun v => !must.contains v)) must).filter (fun out => s.poolsHold (out.flatMap s.groupOf))

/-- Evict what the lowest usable origin needs, and claim that origin. -/
def State.preempt (s : State) (f : Nat) : State :=
  let x := s.field f
  if !s.torus.timed then s
  else
    let vs := sortBy s.victimKey ((s.fields.map (·.1)).filter (s.victim (s.prioOf f)))
    match firstSome (fun o => if s.claimed f x o then none else (s.victimsAt x vs o).map (fun out => (o, out))) x.origins with
    | none => s
    | some (o, out) =>
      let gone := out.flatMap s.groupOf
      out.foldl State.requestEvict (s.modField f (fun x => { x with claim := some (o, gone) }))

/-- A claim whose victims have all left: the candidate is placed there, or the claim falls when it no longer fits, or its partner
stands.  It is placed there before candidates of higher priority are tried, the model's choice (log entry 48). -/
def State.takeClaim (s : State) (f : Nat) : State :=
  match (s.field f).claim with
  | none => s
  | some (o, vs) =>
    if (s.field f).state != .ready || (s.hostPartner f).isSome then s.modField f (fun x => { x with claim := none })
    else if !vs.isEmpty then s
    else if s.fitsAt (s.field f) o then s.placeCandidate f o
    else s.modField f (fun x => { x with claim := none })

/-! ## The decision (R143, R144) -/

/-- Try candidates in order: the first that fits is placed; behind one that does not, only its equals are tried.  A candidate whose
claim waits for its victims does not pre-empt again. -/
def State.tryCandidates (s : State) : List Nat → Option Nat → Bool × State
  | [], _ => (false, s)
  | f :: fs, block =>
    if block.any (fun b => decide (s.candidatePrio f < b)) then (false, s)
    else
      match s.hostPartner f with
      | some p => (true, s.placeSecond f p)
      | none =>
        match (if (s.field f).claim.isNone then s.fits f else none) with
        | some o => (true, s.placeCandidate f o)
        | none =>
          let p := s.candidatePrio f
          let s := if (s.field f).state == .ready && (s.field f).claim.isNone then s.preempt f else s
          State.tryCandidates s fs (some (block.getD p))

/-- Place candidates until none fits. -/
def State.decisions (s : State) : Nat → State
  | 0 => s
  | n + 1 =>
    match s.tryCandidates s.candidates none with
    | (true, s) => State.decisions s n
    | (false, s) => s

/-- SCHEDULER_DECISION (R143). -/
def execSchedulerDecision (s : State) : Out3 :=
  let s := { s with decide_ := false }
  if s.hport.shutdown || !s.pkg.ready then .next s
  else .next (((s.fields.map (·.1)).foldl State.takeClaim s).decisions (s.fields.length + 1))

/-! ## Placed notices (R162, R163) -/

/-- The neighbours of a package on the torus, in the order of its ports X+, X−, Y+, Y−, Z+, Z− (R46). -/
def State.pkgNeighbours (s : State) (n : Nat) : List Nat :=
  let x := s.extent 0
  let y := s.extent 1
  let z := s.extent 2
  let a := n % x
  let b := n / x % y
  let c := n / x / y
  let at_ (a b c : Nat) : Nat := a + x * (b + y * c)
  [at_ ((a + 1) % x) b c, at_ ((a + x - 1) % x) b c, at_ a ((b + 1) % y) c, at_ a ((b + y - 1) % y) c,
    at_ a b ((c + 1) % z), at_ a b ((c + z - 1) % z)]

/-- The packages of a span one hop from a package through owned ports.  A hop of this package runs through a port that PORTS names;
of the ports of the others a package knows only that they lead to neighbours in the span (R139, log entry 53). -/
def State.spanHops (s : State) (x : Field) (span : List Nat) (n : Nat) : List Nat :=
  ((numbered 0 (s.pkgNeighbours n)).filter (fun e =>
    span.contains e.2 && (n != s.pkgNum || bitAt x.ports e.1)
      && (e.2 != s.pkgNum || bitAt x.ports (if e.1 % 2 = 0 then e.1 + 1 else e.1 - 1)))).map (·.2)

/-- The most hops from a package to any of a span; `n` bounds the hops. -/
def State.farthest (s : State) (x : Field) (span : List Nat) : Nat → List Nat → Nat
  | 0, _ => 0
  | n + 1, seen =>
    let next := distinct (seen ++ seen.flatMap (s.spanHops x span))
    if next.length ≤ seen.length then 0 else 1 + State.farthest s x span n next

/-- Λ (R162), once every placed notice is held. -/
def State.lambdaOf (s : State) (x : Field) : Nat :=
  let span := distinct (s.pkgNum :: x.notices.map (·.1))
  let d := maxNat (span.map (fun p => s.farthest x span x.span [p]))
  64 + (d + 1) * (maxNat (x.notices.map (·.2.2)) + 4096)

/-- The largest latency of a field's ports. -/
def State.ownLmax (s : State) (x : Field) : Nat :=
  maxNat (((List.range 6).filter (bitAt x.ports)).map (fun p => (s.port p).lat))

/-- Start a loaded field at a global cycle; after SHUTDOWN none starts (R113). -/
def State.startField (s : State) (f g : Nat) : State :=
  if s.hport.shutdown then s else (s.modField f (fun x => { x with resumeG := some g })).at none ((g : Int) + s.gzero).toNat phStart (.fieldStart (.ofNat 16 f))

/-- After a field is parked, whichever member was asked for resumes. -/
def State.resumeNext (s : State) (f : Nat) : State :=
  match ((s.livePartner f).toList ++ [f]).find? (fun g =>
      (s.field g).state == .parked && (s.field g).resumeReq.isSome && (s.field g).resumeG.isNone) with
  | some g => s.fixResume g ((s.field g).resumeReq.getD s.global)
  | none => s

/-- A loaded part of a spanning field knows Λ once it holds every placed notice, its own included; then it starts, or, a second
member, resumes if that was asked. -/
def State.spanStart (s : State) (f : Nat) : State :=
  let x := s.field f
  let here := x.state == .starting || x.state == .parked
  if here && x.lam.isNone && x.span == x.notices.length then
    let l := s.lambdaOf x
    let s := s.modField f (fun x => { x with lam := some l })
    if x.state == .starting then
      s.startField f (max (roundUp (maxNat (x.notices.map (·.2.1)) + l) 4) (roundUp (s.global + 1) 4))
    else s.resumeNext f
  else s

/-- Take a placed notice into account, once for each package. -/
def State.placedNotice (s : State) (port : BitVec 3) (flit : List Byte) : State :=
  s.takeNotice port flit (fun n s =>
    (s.modField n.field (fun x =>
      if x.notices.any (fun e => e.1 == n.origin) then x else { x with notices := x.notices ++ [(n.origin, n.cycle, n.lmax)] })).spanStart
      n.field)

/-- NOTICE_PLACED: kept aside while the field is not placed here. -/
def execNoticePlaced (port : BitVec 3) (flit : List Byte) (s : State) : Out3 :=
  let n := noticeAt flit
  let f := n.field
  .next (if !sealed flit || s.seen.contains (n.origin, n.serial) then s
    else if s.live f && (s.field f).placed then s.placedNotice port flit
    else { s with early := s.early ++ [(port.toNat, flit)] })

/-- The placed notices that came early. -/
def State.takeEarly (s : State) (f : Nat) : State :=
  let mine := s.early.filter (fun e => (noticeAt e.2).field == f)
  let s := { s with early := s.early.filter (fun e => (noticeAt e.2).field != f) }
  mine.foldl (fun s e => s.placedNotice (.ofNat 3 e.1) e.2) s

/-! ## Loaded (R124, R142, R145, R163) -/

/-- A launch failure (R124, R131). -/
def State.launchFails (s : State) (f reason : Nat) : State :=
  let x := s.field f
  (s.fieldGone f true).record (launchFailureRecord reason x.queue x.seq f)

/-- The windows of a field that has been parked for 1 ms may be drowsy (R336). -/
def State.drowsyLater (s : State) (f : Nat) : State :=
  (s.field f).places.foldl (fun s p => s.at none (s.now + 2000000) phDevice (.windowDrowsy (.ofNat 8 p.1) (.ofNat 2 p.2))) s

/-- The field is loaded: a second member is parked at tcyc 0; any other starts after this cycle, or once its span agrees.  Every part of
a spanning field sends placed (R163). -/
def State.loaded (s : State) (f : Nat) : State :=
  let x := s.field f
  let second := (s.livePartner f).any (fun p => (s.field p).placed && decide ((s.field p).placedAt < x.placedAt))
  let s := s.modField f (fun x => { x with state := if second then .parked else .starting, loadEnd := s.global, parkedAt := s.now })
  let s :=
    if x.spanning then
      let l := s.ownLmax x
      ((s.modField f (fun x => { x with notices := x.notices ++ [(s.pkgNum, s.global, l)] })).sendNotice f 1 s.global 0 0 l).spanStart f
    else if second then s
    else s.startField f (roundUp (s.global + 1) 4)
  if second then (s.drowsyLater f).evictReady f else s

/-- IMAGE_LOADED: the header, the code and the dictionary are read, and every tile is loaded. -/
def execImageLoaded (field : Half) (remote : Table Byte) (s : State) : Out3 :=
  let f := field.toNat
  let x := s.field f
  let again (s : State) : Out3 := .next (s.later s.nextId 1 (.imageLoaded field []))
  if !(s.live f && x.state == .loading) then .next s
  else
    let s := s.takeEarly f
    match s.imageBytes x.image 128 remote with
    | (none, s) => again s
    | (some none, s) => .next (s.launchFails f 2)
    | (some (some b), s) =>
      if badHead b x (s.grouped f) then .next (s.launchFails f 1)
      else
        let h := imageHead b x.ctxs
        match s.imageBytes (x.image + 128) (2 * h.codeLen) remote with
        | (none, s) => again s
        | (some none, s) => .next (s.launchFails f 2)
        | (some (some code), s) =>
          match s.imageBytes (x.image + dictStart h.codeLen) (48 * h.dictLen) remote with
          | (none, s) => again s
          | (some none, s) => .next (s.launchFails f 2)
          | (some (some dict), s) =>
            let s := s.modField f (fun x => { x with codeLen := h.codeLen, dictLen := h.dictLen })
            .next ((x.tiles.foldl (fun s t => s.loadTile (s.field f) h code dict t) s).loaded f)

/-! ## Start, quiet, eviction and restore -/

/-- FIELD_START (R145): tcyc reads 0 from this cycle on.  A field that starts under a trip, after SHUTDOWN, or while its group is
to be evicted freezes at once. -/
def execFieldStart (field : Half) (s : State) : Out3 :=
  let f := field.toNat
  let x := s.field f
  if !(s.live f && x.state == .starting && x.resumeG == some s.global) || s.hport.offok then .next s
  else
    let s := s.modField f (fun x => { x with
      state := .running, ticking := true, tcZero := s.now, tcStop := 0, tcPrev := s.now, runs := [], resumeG := none, tripped := s.pkg.thtrip })
    let s := x.places.foldl (fun s p => s.modCtx p.1 p.2 (fun c => { c with readyAt := s.now })) s
    let evict := (s.groupOf f).any (fun m => (s.field m).toEvict)
    .next ((if evict || s.pkg.thtrip || s.hport.shutdown then s.requestFreeze f evict else s).giveWay f)

/-- FIELD_QUIET (R154, R312): the field is PARKED, or EVICTING with its group. -/
def execFieldQuiet (field : Half) (s : State) : Out3 :=
  let f := field.toNat
  let x := s.field f
  if !(s.live f && x.state == .freezing && !x.ticking && decide (x.quietAt ≤ s.global)) then .next s
  else
    let s := if s.grouped f then s.settleMember f else s
    let s := s.modField f (fun x => { x with
      state := .parked, parkedAt := s.now, ranAtFreeze := x.toEvict, parkers := [] })
    let s := (((s.packetsDone x.parkers).drowsyLater f).evictReady f)
    .next (if (s.groupOf f).any (fun m => (s.field m).toEvict) then s else s.resumeNext f)

/-- Asynchronous commands of a field are still to complete. -/
def State.cmdsLeft (s : State) (f : Nat) : Bool := s.cmds.any (fun c => c.field == f)

/-- The field's tiles are free, and it is a candidate. -/
def State.evicted (s : State) (f : Nat) : State :=
  let x := s.field f
  let o := s.shareOf f
  let keep (y : SavedTile) : SavedTile :=
    { y with tile := (s.tile ((x.locate (4 * y.place)).1)).savePart o f x.member x.hws }
  let s := { s with saved := s.saved.insert f (((s.saved.find f).getD []).map keep) }
  let s := ((((s.freeTiles f).freePass f).lapse f).unclaim f).modField f (fun x => { x with
    state := .evicted, order := s.orders, toEvict := false })
  { s with orders := s.orders + 1, decide_ := true }

/-- SAVES_COMPLETE (R152, R335): once no command of the field, or of its partner, is left. -/
def execSavesComplete (field : Half) (s : State) : Out3 :=
  let f := field.toNat
  if !(s.live f && (s.field f).state == .evicting) then .next s
  else if (f :: (s.livePartner f).toList).any s.cmdsLeft then .next (s.later s.nextId 1 (.savesComplete field))
  else
    let s := s.evicted f
    let ms := f :: (s.livePartner f).toList
    if ms.any (fun m => (s.field m).state == .evicting) then .next s
    else
      let ps := ms.flatMap (fun m => (s.field m).evicters)
      .next ((ms.foldl (fun s m => s.modField m (fun x => { x with evicters := [] })) s).packetsDone ps)

/-- A RESUME packet that waits for a field of the group and starts now that the group is restored (R491): no FENCE of its queue holds
it back. -/
def State.resumeAwaits (s : State) (ms : List Nat) : Bool :=
  !s.hport.shutdown && s.hport.queues.any (fun e =>
    !e.2.started.any (fun p => pktType p == 9) && e.2.taken.head?.any (fun p => pktType p == 3 && ms.contains (p.num 4 2)))

/-- The saved state is on the tiles again. -/
def State.restored (s : State) (f : Nat) : State :=
  let x := s.field f
  let o := s.shareOf f
  let s := ((s.saved.find f).getD []).foldl (fun s y =>
    let s := s.modTile (x.locate (4 * y.place)).1 (fun t => t.restorePart y.tile o x.member)
    (numbered 0 y.ctxs).foldl (fun s e =>
      let r := 4 * y.place + e.1
      let l := x.locate r
      s.setCtx l.1 l.2 { e.2 with tloc := s.tlocOf x r, drowsy := false }) s) s
  let s := { s with saved := s.saved.remove f, decide_ := true }
  s.modField f (fun x => { x with state := .parked, parkedAt := s.now })

/-- RESTORE_COMPLETE (R142, R156, R491): the field is parked, and resumes; of a group, the member that ran at the freeze does,
unless a RESUME names one. -/
def execRestoreComplete (field : Half) (s : State) : Out3 :=
  let f := field.toNat
  if !(s.live f && (s.field f).state == .restoring) then .next s
  else if s.cmdsLeft f then .next (s.later s.nextId 1 (.restoreComplete field))
  else
    let s := (s.restored f).drowsyLater f
    let ms := f :: (s.livePartner f).toList
    if ms.any (fun m => (s.field m).state.saving) then .next s
    else if !s.grouped f then .next (s.fixResume f s.global)
    else if ms.any (fun m => (s.field m).resumeReq.isSome) then .next (s.resumeNext f)
    else if s.resumeAwaits ms then .next s
    else
      match ms.find? (fun m => (s.field m).ranAtFreeze) with
      | some m => .next (s.fixResume m s.global)
      | none => .next s

/-! ## Completion (R140, R401) -/

/-- FIELD_COMPLETE: dirty stash lines are written back, accepted writes commit, everything of the field is freed. -/
def execFieldComplete (field : Half) (s : State) : Out3 :=
  let f := field.toNat
  let x := s.field f
  let allDone := x.rels.all (fun r => let c := (s.place f r).1; c.done || c.halted)
  if !(s.live f && x.state == .running && x.ticking && allDone && (!x.spanning || decide (x.span ≤ x.dones.length))) then .next s
  else
    let partner := s.livePartner f
    let s := x.places.foldl (fun s p => s.unmapWhere p.1 p.2 (fun _ => true)) s
    let s := (((s.forceStores f Cmd.isWriteBack).commitField f).dropCalls f).freeTiles f
    let s := s.fieldGone f false
    .next (match partner with
      | none => s
      | some p => (s.evictReady p).resumeNext p)

end Sys2Proof.Machine
end

