-- ==== Sys2Proof/Machine/Images.lean ====
section
/-! DEFINITION. CSAVE and CLOAD (R482): the context image (R483), the tile record (R484), the code image, and the updates that reach
a saved image (R485). -/

namespace Sys2Proof

/-! ## Pieces of an image -/

/-- The memory that lists some bytes from 0. -/
def memOf (bs : List Byte) : Mem := (numbered 0 bs).filter (fun e => e.2 != 0)

/-- The n bytes of a memory from a on, as a memory from 0. -/
def Mem.slice (m : Mem) (a n : Nat) : Mem :=
  (m.filter (fun e => decide (a ≤ e.1) && decide (e.1 < a + n))).map (fun e => (e.1 - a, e.2))

/-- A memory's bytes moved up by a. -/
def Mem.shifted (m : Mem) (a : Nat) : Mem := m.map (fun e => (e.1 + a, e.2))

end Sys2Proof

namespace Sys2Proof.Machine

open Sys2Proof

/-- The table of f 0, …, f (n − 1) from key k on. -/
def tableOf {α : Type} [DecidableEq α] (d : α) (k n : Nat) (f : Nat → α) : Table α :=
  (List.range n).foldl (fun t j => t.wr d (k + j) (f j)) []

def zeros (n : Nat) : List Byte := List.replicate n 0

/-! ## The context image (R483) -/

def contextBytes : Nat := 192512
def recordBytes : Nat := 8192
def blockAt : Nat := 0x2E000

def acfgBytes (c : ACfg) : List Byte :=
  leBytes 4 (c.mode % 4 + 4 * (c.zs % 4) + 16 * (c.w % 32) + 2 ^ 16 * c.inc.toNat) ++ leBytes 4 c.base.toNat ++ leBytes 4 c.len.toNat
    ++ zeros 4

def acfgFrom (m : Mem) (a : Nat) : ACfg :=
  let x := Mem.num m a 4
  ⟨fld x 0 2, .ofNat 16 (fld x 16 16), .ofNat 32 (Mem.num m (a + 4) 4), .ofNat 32 (Mem.num m (a + 8) 4), fld x 4 5, fld x 2 2⟩

/-- Special registers of the block: (block offset, selector, mask of the bits they store). -/
def imageSpecials : List (Nat × Nat × Nat) :=
  [(0x648, 0x001, 0x7F), (0x658, 0x003, 7), (0x660, 0x004, 15), (0x668, 0x005, 0x3FF), (0x670, 0x006, 15),
    (0x680, 0x008, 0x80007FFF), (0x688, 0x009, 0x3FF), (0x690, 0x00A, 0x7FFF), (0x698, 0x00B, 0x07FA7FFF),
    (0x6C0, 0x100, 2 ^ 64 - 1), (0x6C8, 0x101, 2 ^ 64 - 1), (0x6D0, 0x102, 2 ^ 64 - 1), (0x6D8, 0x800, 1), (0x6E0, 0x801, 0x1FFFF),
    (0x6E8, 0x00C, 2 ^ 64 - 1)]

/-- The register block of a context. -/
def Ctx.block (c : Ctx) : List Byte :=
  let r (n : Nat) (f : Nat → List Byte) : List Byte := (List.range n).flatMap f
  let held := sumNat ((List.range 6).map (fun k => if (c.holds.find? (fun h => h.1 == k)).isSome then 2 ^ k else 0))
  let latch (k : Nat) : TileCopy := ((c.holds.find? (fun h => h.1 == k)).map (·.2)).getD TileCopy.zero
  let preds := 1 + sumNat ((List.range 8).map (fun n => if 1 ≤ n && c.user.p.rd false n then 2 ^ n else 0))
  let shadows := sumNat ((List.range 4).map (fun n => if c.shadow.p.rd false (4 + n) then 2 ^ (4 + n) else 0))
  r 8 (fun n => leBytes 8 (c.queue.rd TileCopy.zero n).view.toNat) ++ r 6 (fun k => leBytes 8 (latch k).view.toNat)
    ++ leBytes 1 held ++ leBytes 1 preds ++ leBytes 1 shadows ++ leBytes 1 (b2n c.halted + 2 * b2n c.done) ++ leBytes 2 c.pc
    ++ leBytes 1 c.loops.length ++ zeros 9 ++ bytesAt (loopBytes c.loops) 0 96 ++ zeros 32
    ++ r 32 (fun n => leBytes 8 (if n = 0 then 0 else (c.user.s.rd 0 n).toNat)) ++ r 8 (fun n => leBytes 8 (c.shadow.s.rd 0 (24 + n)).toNat)
    ++ r 16 (fun n => leBytes 4 (c.user.a.rd 0 n).toNat) ++ r 16 (fun n => acfgBytes (c.user.acfg.rd ACfg.linear n))
    ++ r 16 (fun n => leBytes 4 (c.ereg n).toNat) ++ r 8 (fun n => leBytes 4 (c.dreg n).toNat) ++ zeros 32
    ++ r 64 (fun n => leBytes 8 (c.user.v.rd 0 n).toNat) ++ r 4 (fun k => leBytes 16 (c.stmap.rd 0 k).toNat)
    ++ r 22 (fun k => leBytes 8 (match imageSpecials.find? (fun x => x.1 == 0x640 + 8 * k) with
        | some x => (c.special x.2.1).toNat
        | none => 0))

/-- The context image (R483). -/
def Ctx.toImage (c : Ctx) : Mem :=
  let latch (k : Nat) : TileCopy := ((c.holds.find? (fun h => h.1 == k)).map (·.2)).getD TileCopy.zero
  c.window ++ Mem.shifted c.catchMem 0x10000
    ++ (List.range 8).flatMap (fun n => Mem.shifted (Mem.slice (c.queue.rd TileCopy.zero n).bytes 0 4096) (0x20000 + 4096 * n))
    ++ (List.range 6).flatMap (fun k => Mem.shifted (Mem.slice (latch k).bytes 0 4096) (0x28000 + 4096 * k))
    ++ Mem.shifted (memOf c.block) blockAt

/-- A context with everything an image lists (R483): the user set, the shadow set, and what else the image names. -/
def Ctx.fromImage (c : Ctx) (m : Mem) (seg : Nat) : Ctx :=
  let b := blockAt
  let sp (sel : Nat) : Nat :=
    match imageSpecials.find? (fun x => x.2.1 == sel) with
    | some x => Nat.land (Mem.num m (b + x.1) 8) x.2.2
    | none => 0
  let w (sel : Nat) : W32 := .ofNat 32 (sp sel)
  let w64 (sel : Nat) : W64 := .ofNat 64 (sp sel)
  let held := Mem.num m (b + 0x70) 1
  { c with
    window := Mem.slice m 0 65536, catchMem := Mem.slice m 0x10000 65536,
    queue := tableOf TileCopy.zero 0 8 (fun n => ⟨.ofNat 64 (Mem.num m (b + 8 * n) 8), Mem.slice m (0x20000 + 4096 * n) 4096⟩),
    holds := (List.range 6).filterMap (fun k =>
      if bitAt held k then some (k, ⟨.ofNat 64 (Mem.num m (b + 0x40 + 8 * k) 8), Mem.slice m (0x28000 + 4096 * k) 4096⟩) else none),
    halted := bitAt (Mem.num m (b + 0x73) 1) 0, done := bitAt (Mem.num m (b + 0x73) 1) 1, pc := Mem.num m (b + 0x74) 2 % seg,
    loops := loopsFrom m (b + 0x80) (min 6 (Mem.num m (b + 0x76) 1)),
    user := {
      s := tableOf 0 1 31 (fun n => .ofNat 64 (Mem.num m (b + 0x108 + 8 * n) 8)),
      a := tableOf 0 0 16 (fun n => .ofNat 32 (Mem.num m (b + 0x240 + 4 * n) 4)),
      acfg := tableOf ACfg.linear 0 16 (fun n => acfgFrom m (b + 0x280 + 16 * n)),
      p := tableOf false 1 7 (fun n => bitAt (Mem.num m (b + 0x71) 1) (n + 1)),
      v := tableOf 0 0 64 (fun n => viewStore (.ofNat 64 (Mem.num m (b + 0x400 + 8 * n) 8))) },
    shadow := { RegFile.zero with
      s := tableOf 0 24 8 (fun n => .ofNat 64 (Mem.num m (b + 0x200 + 8 * n) 8)),
      p := tableOf false 4 4 (fun n => bitAt (Mem.num m (b + 0x72) 1) (4 + n)) },
    e := tableOf 0 0 16 (fun n => .ofNat 32 (Mem.num m (b + 0x380 + 4 * n) 4)),
    d := (List.range 8).foldl (fun t n => t.wr (slotReset n) n (slotStore (Mem.num m (b + 0x3C0 + 4 * n) 4))) [],
    stmap := tableOf 0 0 4 (fun k => .ofNat 128 (Mem.num m (b + 0x600 + 16 * k) 16)),
    aflags := w 0x001, gscope := w 0x003, hstat := w 0x004, bkstat := w 0x005, lkstat := w 0x006, uivec := w 0x008, uistat := w 0x009,
    uipc := w 0x00A, tdeleg := w 0x00B, tinfo0 := w64 0x100, tinfo1 := w64 0x101, tinfo2 := w64 0x102, smap := w 0x800, dbg := w 0x801,
    rstpt := w64 0x00C, image := none, shown := [] }

/-! ## The tile record (R484) -/

/-- A hardware context of a tile as its field owns it: for a field that is being saved or restored, what is saved. -/
def State.ownedCtx (s : State) (t h : Nat) : Ctx :=
  match (s.ctx t h).field with
  | some f => (s.place f (s.relOf t h)).1
  | none => s.ctx t h

/-- Passes to a row of a stream; beats and flits count as they are. -/
def ECmd.progUnits (c : ECmd) : Nat := if c.isStream then c.desc.p else 1

/-- Progress as a record counts it: passes entered for a stream, beats for the mesh, flits for a link: those that have left or
arrived before F. -/
def ECmd.progress (c : ECmd) (f : Nat) : Nat :=
  match c.plans with
  | [] => c.prog * c.progUnits
  | p :: _ => ((List.range p.n).filter (fun k => decide (p.at 0 k < f))).length

/-- A command that a record holds: one that has not reached its last fixed cycle, or whose forward has flits to send (R208, R484). -/
def ECmd.inRecord (f : Nat) (c : ECmd) : Bool :=
  if c.isStream then decide (f ≤ c.last) else !c.stopped || c.plans.any (fun p => p.out && decide (f ≤ p.lastAt 0))

/-- A command record of 128 bytes. -/
def ECmd.record (c : ECmd) (f : Nat) : List Byte :=
  leBytes 8 (((encodeSlot c.ins).map (·.2)).getD 0) ++ leBytes 2 c.pc ++ leBytes 1 c.hw ++ leBytes 1 (1 + 2 * b2n (decide (c.t < f)))
    ++ zeros 4 ++ leBytes 8 c.t ++ leBytes 8 (c.progress f)
    ++ bytesAt (c.vals.flatMap (fun v => leBytes 8 v.toNat)) 0 48 ++ bytesAt (c.views.flatMap (fun v => leBytes 8 v.toNat)) 0 32
    ++ leBytes 8 (c.fwd.getD 0)
    ++ leBytes 2 (match c.bound.head? with
      | some (b, p) => b % 16 + 16 * (p % 2) + 2 ^ 15
      | none => 0) ++ zeros 6

/-- The commands of a field in an engine's list that a record holds. -/
def ownCmds (cs : List ECmd) (hws : List Nat) : List ECmd := cs.filter (fun c => hws.contains c.hw && !c.dclk)

/-- Sixteen records of one engine. -/
def engineRecords (cs : List ECmd) (f : Nat) : List Byte :=
  bytesAt (((cs.filter (ECmd.inRecord f)).take 16).flatMap (fun c => c.record f)) 0 2048

/-- The tile record of a field on a tile (R484). -/
def State.tileRecord (s : State) (f t : Nat) (x : Tile) : Mem :=
  let y := s.field f
  let per (n : Nat) (g : Ctx → Nat) : List Byte := (List.range 4).flatMap (fun h => leBytes n (g (s.ownedCtx t h)))
  memOf (leBytes 1 (b2n x.split) ++ leBytes 1 (x.running.rd (2 * y.member) y.member) ++ zeros 2 ++ leBytes 4 (x.sroundOf y.member).toNat
    ++ per 1 (fun c => c.ctxpri.toNat) ++ zeros 4
    ++ per 8 (fun c => (c.lastIssue.getD (2 ^ 64 - 1))) ++ leBytes 8 y.tcStop ++ zeros 200
    ++ engineRecords (ownCmds x.arr y.hws) y.tcStop ++ engineRecords (ownCmds x.mesh y.hws) y.tcStop
    ++ engineRecords (ownCmds x.link y.hws) y.tcStop)

/-- The state as an instruction of context hw of tile t, issuing in tcyc of its field, would see it. -/
def State.asIssuer (s : State) (f t hw : Nat) : State :=
  let s := s.modField f (fun x => { x with ticking := true, tcZero := s.now - x.tcStop })
  { s with cur := { Cur.idle with tile := t, hw := hw } }

/-- A command that a record describes and the tile does not hold, accepted anew with the values and views of the record, and what is due
of it. -/
def State.remade (s : State) (t : Nat) (i : Instr) (vals views : List W64) (tt : Nat) : ECmd × List (Nat × Nat × Instr) :=
  let tile : BitVec 8 := .ofNat 8 t
  let id := s.nextId
  let start (e : Engine) : Nat × Nat × Instr := (tt, phRow, .engineStart tile e id)
  let link (k : LinkKind) : ECmd × List (Nat × Nat × Instr) :=
    let c := s.linkCmd k i (vals.flatMap (fun v => leBytes 8 v.toNat)) (views.take 2) tt .user
    (c, [(tt, phRow, .linkTransferStart tile id), (c.last, phLand, linkEnd k tile id)])
  let load (n : Nat) : ECmd × List (Nat × Nat × Instr) :=
    ({ s.newCmd i tt (loadW tt) with views := views.take n, bound := [(0, 0)], expand := tt + 23 },
      [start .array, (loadW tt, phLand, .planeWrite tile id)])
  match i with
  | .stream .. => (s.streamCmd i (vals.headD 0) (views.take 3) tt, [start .array])
  | .streamt .. => (s.streamCmd i (vals.headD 0) (views.take 3) tt, [start .array])
  | .wload .. => load 0
  | .wloadg .. => load 4
  | .wloadgImg .. => load 1
  | .drain .. => ({ s.newCmd i tt tt with views := views.take 1 }, [start .array, (tt + 16, phLand, .drainWrite tile id)])
  | .aclr .. => (s.newCmd i tt tt, [(tt, phLand, .aclrWrite tile id)])
  | .msend _ p pay _ => (s.meshCmd i true p (if meshTile pay then [] else vals.take 1) (if meshTile pay then views.take 1 else []) tt, [start .mesh])
  | .mrecv _ p pay _ => (s.meshCmd i false p (if meshTile pay then [] else vals.take 1) (if meshTile pay then views.take 1 else []) tt, [start .mesh])
  | .lsend .. => link .send
  | .lrecv .. => link .recv
  | .lred .. => link .red
  | .lbcst .. => link .bcst
  | _ => (s.newCmd i tt tt, [])

/-- The engine command that record `a` of an image reinstates: one that the tile still holds, with the progress, values, views and
binding of the record; another is accepted anew, and goes on from the record's progress. -/
def State.reinstate (s : State) (f t : Nat) (eng : Engine) (olds : List ECmd) (m : Mem) (a : Nat) : Option ECmd × State :=
  let box := Mem.num m a 8
  let hw := Mem.num m (a + 10) 1
  let tt := Mem.num m (a + 16) 8
  let words (o n : Nat) : List W64 := (List.range n).map (fun k => .ofNat 64 (Mem.num m (a + o + 8 * k) 8))
  let bd := Mem.num m (a + 120) 2
  let fill (c : ECmd) : ECmd :=
    { c with
      prog := if c.plans.isEmpty then Mem.num m (a + 24) 8 / c.progUnits else c.prog,
      vals := (words 32 6).take c.vals.length, views := (words 80 4).take c.views.length ++ c.views.drop 4,
      fwd := c.fwd.map (fun _ => Mem.num m (a + 112) 8),
      bound := if bitAt bd 15 then (fld bd 0 4, fld bd 4 1) :: c.bound.tail else c.bound.tail }
  if !bitAt (Mem.num m (a + 11) 1) 0 then (none, s)
  else
    match olds.find? (fun c => (encodeSlot c.ins).map (·.2) == some box && c.hw == hw && c.t == tt && c.pc == Mem.num m (a + 8) 2) with
    | some c => (some (fill c), s)
    | none =>
      match decodeSlot (match eng with
        | .array => .a
        | _ => .m) box with
      | .error _ => (none, s)
      | .ok i =>
        let (c, due) := (s.asIssuer f t hw).remade t i (words 32 6) (words 80 4) tt
        let c := { c with pc := Mem.num m (a + 8) 2, sys := false, dclk := false, sysw := false }
        let s := { s with nextId := s.nextId + 1 }
        (some (fill c), due.foldl (fun s d => s.at (some f) d.1 d.2.1 d.2.2) s)

/-- The sixteen records of an engine. -/
def State.reinstateAll (s : State) (f t : Nat) (eng : Engine) (olds : List ECmd) (m : Mem) (a : Nat) : List ECmd × State :=
  (List.range 16).foldl (fun acc k =>
    let (c, s) := acc.2.reinstate f t eng olds m (a + 128 * k)
    (acc.1 ++ c.toList, s)) ([], s)

/-- CLOAD of a tile record (R484): what the field owns of it. -/
def State.loadRecord (s : State) (f place : Nat) (m : Mem) : State :=
  let y := s.field f
  let t := (y.locate (4 * place)).1
  let x := (s.place f (4 * place)).2
  let others (cs : List ECmd) : List ECmd := cs.filter (fun c => !(y.hws.contains c.hw && !c.dclk && c.inRecord y.tcStop))
  let (ca, s) := s.reinstateAll f t .array (ownCmds x.arr y.hws) m 0x100
  let (cm, s) := s.reinstateAll f t .mesh (ownCmds x.mesh y.hws) m 0x900
  let (cl, s) := s.reinstateAll f t .link (ownCmds x.link y.hws) m 0x1100
  let s := s.modPlace f (4 * place) (fun c x => (c, { x with
    split := bitAt (Mem.num m 0 1) 0, running := x.running.insert y.member (Mem.num m 1 1),
    sround := x.sround.wr 1 y.member (if Mem.num m 4 4 = 0 then 1 else .ofNat 32 (Mem.num m 4 4)),
    arr := others x.arr ++ ca, mesh := others x.mesh ++ cm, link := others x.link ++ cl }))
  (List.range y.ctxs).foldl (fun s n =>
    let h := 2 * y.member + n
    let last := Mem.num m (0x10 + 8 * h) 8
    s.modRel f (4 * place + n) (fun c => { c with
      ctxpri := .ofNat 32 (Mem.num m (8 + h) 1 % 4), lastIssue := if last = 2 ^ 64 - 1 then none else some last })) s

/-! ## The code image (R482) -/

/-- Bytes of the code image of a field, and of its code segment. -/
def State.codeBytes (s : State) (f : Nat) : Nat := if s.grouped f then 131072 else 262144

def State.codeImage (s : State) (f : Nat) (x : Tile) : Mem :=
  let n := s.segSize f
  let m := (s.field f).member
  memOf ((List.range n).flatMap (fun h => leBytes 2 (x.code.rd 0xFFFE (16384 * m + h)).toNat))
    ++ Mem.shifted (Mem.slice x.dict (dictHalf * m) (s.codeBytes f - 2 * n)) (2 * n)

/-- The segments of a field as an image holds them. -/
def State.loadCode (s : State) (f place : Nat) (b : Mem) : State :=
  let n := s.segSize f
  let m := (s.field f).member
  s.modPlace f (4 * place) (fun c x =>
    let src : Tile := { Tile.idle with
      code := tableOf 0xFFFE (16384 * m) n (fun h => .ofNat 16 (Mem.num b (2 * h) 2)),
      dict := Mem.shifted (Mem.slice b (2 * n) (s.codeBytes f - 2 * n)) (dictHalf * m) }
    let o := s.shareOf f
    (c, { x with code := putPart o 16384 x.code src.code, dict := putPart o dictHalf x.dict src.dict }))

/-! ## The instructions (R482) -/

/-- The field stands still and is quiet: MD 0, 1 and 3 are legal. -/
def State.imageTime (s : State) : Bool := s.cfrozen && decide (s.cfield.quietAt ≤ s.global)

/-- sG lies in the table window or the save window of a die. -/
def State.imageWindow (s : State) (a : Nat) : Bool :=
  decide (a < 2 ^ 60) && decide (vPkg a < s.pkgCount) && decide (saveWindow ≤ vOff a)

/-- The checks of CSAVE and CLOAD of the MD 0, 1 and 3 forms; `c` is the hardware context of MD 0. -/
def chkImage (g : Guard) (op : Nat) (c : Option (BitVec 2)) (gs : BitVec 5) (s : State) : Option Trap :=
  let a := (s.cc.sreg gs.toNat).toNat
  s.achk g (s.sysTrap slM op) (if s.imageTime then none else some (illegal5 slM)) none
    (firstTrap [
      (c.any (fun c => !s.cfield.hws.contains c.toNat), ⟨2, 1, slM, (c.getD 0).toNat, 0⟩),
      (a % 4096 != 0, alignMem a),
      (!s.imageWindow a, ⟨6, 3, slM, a, 0⟩)])

/-- The block that sDR names: its first byte and its length. -/
def blockOf (d : Nat) : Nat × Nat := (fld d 0 18, 128 * fld d 18 16)

/-- The checks of the MD 2 forms; a write to an entry that a stream is still filling is refused outside a freeze (R201). -/
def chkBlk (g : Guard) (op : Nat) (gs dr : BitVec 5) (s : State) : Option Trap :=
  let a := (s.cc.sreg gs.toNat).toNat
  let d := (s.cc.sreg dr.toNat).toNat
  let (base, n) := blockOf d
  s.achk g (s.sysTrap slM op)
    (if decide (n = 0) || decide (262144 < n) || decide (2 ^ 34 ≤ d) then some (illegal5 slM) else none) none
    (allTraps [
      (if base % 128 != 0 then some (alignView slM base) else none),
      (if a % 128 != 0 then some (alignMem a) else none),
      s.descProt base n,
      (if s.imageWindow a then none else some ⟨6, 3, slM, a, 0⟩),
      (if op = 0x16 then s.aliasBusy slM base n else none)])

/-- The place of the issuing context's tile in its field. -/
def State.curPlace (s : State) : Nat := s.relOf s.cur.tile s.cur.hw / 4

/-- Accept a CSAVE of n bytes, sampled now, or a CLOAD of n bytes; `c` is the place of the context that MD 0 names. -/
def State.imageCmd (s : State) (i : Instr) (gs : BitVec 5) (e : BitVec 4) (src : Mem) (n c : Nat) (ev : Nat → Instr) : State :=
  s.async { s.newAsync i (some e.toNat) with
    addr := (s.cc.sreg gs.toNat).toNat, bytes := src, pitch := n, vals := [.ofNat 64 c] } ev

/-- The place of hardware context c of the tile. -/
def State.placeOfHw (s : State) (c : BitVec 2) : Nat := 4 * s.curPlace + (c.toNat - 2 * s.cmember)

/-- The context behind a place of the issuing field as it stands: what is kept of it while a service runs in it, with what the service
entry and the service's own writes have left in the registers and memories that both share (R320, R481). -/
def State.standing (s : State) (r : Nat) : Ctx :=
  let k := (s.place s.cf r).1
  let l := s.cfield.locate r
  let c := s.ctx l.1 l.2
  if s.cfield.state != .evicting then k
  else { k with
    window := c.window, catchMem := c.catchMem, queue := c.queue, holds := c.holds, d := c.d, stmap := c.stmap, aflags := c.aflags,
    gscope := c.gscope, uivec := c.uivec, uipc := c.uipc, tdeleg := c.tdeleg, tinfo0 := c.tinfo0, tinfo1 := c.tinfo1, tinfo2 := c.tinfo2,
    smap := c.smap, dbg := c.dbg }

/-- A drowsy window wakes, to turn drowsy again after 1 ms (R336). -/
def State.wakeWindow (s : State) (c : BitVec 2) (r : Nat) : State :=
  if (s.place s.cf r).1.drowsy || (s.ctx s.cur.tile c.toNat).drowsy then
    ((s.modRel s.cf r (fun x => { x with drowsy := false })).modCtx s.cur.tile c.toNat (fun x => { x with drowsy := false })).at none
      (s.now + 2000000) phDevice (.windowDrowsy (.ofNat 8 s.cur.tile) c)
  else s

/-- csave.ctx: the context as its field left it; its stash is empty since the eviction began (R277, R485); a drowsy window wakes
(R336). -/
def execCsaveCtx (g : Guard) (c : BitVec 2) (gs : BitVec 5) (e : BitVec 4) (s : State) : Out3 :=
  s.slot g (chkImage g 0x15 (some c) gs s) (fun s =>
    let r := s.placeOfHw c
    (s.wakeWindow c r).imageCmd (.csaveCtx g c gs e) gs e (s.standing r).toImage contextBytes r .csaveComplete)

def execCsaveTile (g : Guard) (gs : BitVec 5) (e : BitVec 4) (s : State) : Out3 :=
  s.slot g (chkImage g 0x15 none gs s) (fun s =>
    s.imageCmd (.csaveTile g gs e) gs e (s.tileRecord s.cf s.cur.tile (s.place s.cf (4 * s.curPlace)).2) recordBytes 0 .csaveComplete)

def execCsaveBlk (g : Guard) (gs dr : BitVec 5) (e : BitVec 4) (s : State) : Out3 :=
  s.slot g (chkBlk g 0x15 gs dr s) (fun s =>
    let (base, n) := blockOf (s.cc.sreg dr.toNat).toNat
    s.imageCmd (.csaveBlk g gs dr e) gs e (memOf (regBytes s.cc s.ct base n)) n 0 .csaveComplete)

def execCsaveCode (g : Guard) (gs : BitVec 5) (e : BitVec 4) (s : State) : Out3 :=
  s.slot g (chkImage g 0x15 none gs s) (fun s =>
    s.imageCmd (.csaveCode g gs e) gs e (s.codeImage s.cf (s.place s.cf (4 * s.curPlace)).2) (s.codeBytes s.cf) 0 .csaveComplete)

def execCloadCtx (g : Guard) (c : BitVec 2) (gs : BitVec 5) (e : BitVec 4) (s : State) : Out3 :=
  s.slot g (chkImage g 0x16 (some c) gs s) (fun s =>
    s.imageCmd (.cloadCtx g c gs e) gs e [] contextBytes (s.placeOfHw c) (.cloadComplete ⟨·, []⟩))

def execCloadTile (g : Guard) (gs : BitVec 5) (e : BitVec 4) (s : State) : Out3 :=
  s.slot g (chkImage g 0x16 none gs s) (fun s => s.imageCmd (.cloadTile g gs e) gs e [] recordBytes 0 (.cloadComplete ⟨·, []⟩))

def execCloadBlk (g : Guard) (gs dr : BitVec 5) (e : BitVec 4) (s : State) : Out3 :=
  s.slot g (chkBlk g 0x16 gs dr s) (fun s =>
    let (base, n) := blockOf (s.cc.sreg dr.toNat).toNat
    s.imageCmd (.cloadBlk g gs dr e) gs e [] n base (.cloadComplete ⟨·, []⟩))

def execCloadCode (g : Guard) (gs : BitVec 5) (e : BitVec 4) (s : State) : Out3 :=
  s.slot g (chkImage g 0x16 none gs s) (fun s => s.imageCmd (.cloadCode g gs e) gs e [] (s.codeBytes s.cf) 0 (.cloadComplete ⟨·, []⟩))

/-! ## Completion (R482, R485) -/

/-- What an image shows of the registers that R485 keeps up to date: %e, hstat, bkstat, lkstat and uistat. -/
def Ctx.shows (c : Ctx) : List Byte :=
  (List.range 16).flatMap (fun n => leBytes 4 (c.ereg n).toNat) ++ leBytes 8 c.hstat.toNat ++ leBytes 8 c.bkstat.toNat
    ++ leBytes 8 c.lkstat.toNat ++ leBytes 8 c.uistat.toNat

/-- Where byte k of `Ctx.shows` lies in an image. -/
def shownAt (k : Nat) : Nat :=
  blockAt + (if k < 64 then 0x380 + k else if k < 72 then 0x660 + (k - 64) else if k < 80 then 0x668 + (k - 72)
    else if k < 88 then 0x670 + (k - 80) else 0x688 + (k - 88))

/-- The last byte of a CSAVE is written: a context records its image. -/
def State.saved_ (s : State) (c : Cmd) : State :=
  let s := match c.ins with
    | .csaveCtx .. =>
      let shown := (List.range 96).map (fun k => c.bytes.byte (shownAt k))
      s.modRel c.field (c.val 0) (fun x => { x with image := some c.addr, shown := shown })
    | _ => s
  s.complete c

/-- CSAVE_COMPLETE: the next 128 bytes of the image; after the last, the event. -/
def execCsaveComplete (id : Nat) (s : State) : Out3 :=
  match s.cmd id with
  | none => .next s
  | some c =>
    if c.pitch ≤ 128 * c.prog then .next (s.saved_ c)
    else
      match s.kPut c (c.addr + 128 * c.prog) (c.bytes.bytes (128 * c.prog) 128) with
      | none => .next (s.later c.seq 1 (.csaveComplete id))
      | some (c, s) => .next ((s.putCmd { c with prog := c.prog + 1 }).later c.seq 0 (.csaveComplete id))

/-- A CLOAD of a context reads its image after the updates: what it has read already takes them too (R485). -/
def State.patchLoads (s : State) (f rel a : Nat) (cells : List (Nat × Byte)) : State :=
  { s with cmds := s.cmds.map (fun c =>
      match c.ins with
      | .cloadCtx .. =>
        if c.field = f && c.val 0 == rel && c.addr == a then
          { c with bytes := (cells.filter (fun x => decide (x.1 - a < 128 * c.prog))).foldl (fun m x => m.setByte (x.1 - a) x.2) c.bytes }
        else c
      | _ => c) }

/-- Bring one saved context's image up to date (R485). -/
def State.refreshImage (s : State) (f place n : Nat) (c : Ctx) : State :=
  match c.image with
  | none => s
  | some a =>
    let now := c.shows
    if now == c.shown then s
    else
      let cells := (List.range 96).filterMap (fun k =>
        let b := (now[k]?).getD 0
        if (c.shown[k]?).getD 0 == b then none else some ((a + shownAt k) % 2 ^ 64, b))
      let (l, s) := s.xlLines .system true (linesOfAddrs (cells.map (·.1)))
      ((s.kWrite l 3 0 0 cells).patchLoads f (4 * place + n) a cells).modRel f (4 * place + n) (fun c => { c with shown := now })

/-- The last byte of a CLOAD is read: the state it names is written. -/
def State.loadedImage (s : State) (c : Cmd) : State :=
  let s := match c.ins with
    | .cloadCtx .. => s.modRel c.field (c.val 0) (fun x => x.fromImage c.bytes (s.segSize c.field))
    | .cloadTile .. => s.loadRecord c.field (c.rel / 4) c.bytes
    | .cloadCode .. => s.loadCode c.field (c.rel / 4) c.bytes
    | .cloadBlk .. =>
      let cells := (numbered (c.val 0) (c.bytes.bytes 0 c.pitch)).map (fun (p : Nat × Byte) => (⟨p.1, 255, p.2⟩ : MaskedByte))
      let raw := !(s.field c.field).ticking
      s.modCmdPlace c (fun x t => putCells c.sysw raw cells (x, t))
    | _ => s
  s.complete c

/-- The updates of this cycle reach the image of a context before a CLOAD of it completes (R485). -/
def State.refreshFor (s : State) (c : Cmd) : State :=
  match c.ins with
  | .cloadCtx .. =>
    if (s.saved.find c.field).isSome then
      s.refreshImage c.field (c.val 0 / 4) (c.val 0 % 4) (s.place c.field (c.val 0)).1
    else s
  | _ => s

/-- CLOAD_COMPLETE: the next 128 bytes; after the last, the writes and the event. -/
def execCloadComplete (x : Answer) (s : State) : Out3 :=
  match s.cmd x.id with
  | none => .next s
  | some c =>
    if c.pitch ≤ 128 * c.prog then
      let s := s.refreshFor c
      .next (s.loadedImage ((s.cmd x.id).getD c))
    else
      match s.kRead c (c.addr + 128 * c.prog) 128 x.remote with
      | none => .next (s.later c.seq 1 (.cloadComplete ⟨x.id, []⟩))
      | some (bs, c, s) =>
        .next ((s.putCmd { c with bytes := c.bytes.setBytes (128 * c.prog) bs, prog := c.prog + 1 }).later c.seq 0
          (.cloadComplete ⟨x.id, []⟩))

/-- The end of a cycle: every recorded image shows the registers as they are. -/
def State.imageScan (s : State) : State :=
  s.saved.foldl (fun s e => e.2.foldl (fun s y => (numbered 0 y.ctxs).foldl (fun s x => s.refreshImage e.1 y.place x.1 x.2) s) s) s

end Sys2Proof.Machine
end

