-- ==== Sys2Proof/Machine/Issue.lean ====
section
/-! DEFINITION. What happens at a bundle boundary besides the bundle: reported traps, single step, user interrupts, the return
of UIRET and the system handler's services (R210 to R212, R322 to R330, R399); engine starts; fetching (R178 to R180); which
contexts may issue (R170, R181); and the destinations and direct sources of a bundle (R187, R190). -/

namespace Sys2Proof.Machine

open Sys2Proof

/-! ## Fetching (R176 to R180, R327) -/

/-- What stands at a context's PC. -/
inductive Fetch where
  /-- an escape halfword whose extra cycle is still to be spent (R179) -/
  | escape
  /-- an index that names no entry: the halfword (R178) -/
  | dict (x : Nat)
  | bundle (n : Nat)
deriving DecidableEq, Repr

/-- A bundle from the 24 halfwords from PC `pc` on, the first holding bits [15:0]. -/
def State.literalAt (s : State) (t : Nat) (c : Ctx) (pc : Nat) : Nat → Nat
  | 0 => 0
  | n + 1 => (s.codeHalf t c (pc % s.codeSize c)).toNat + 65536 * State.literalAt s t c (pc + 1) n

/-- The bundle in a dictionary entry of the context's segment. -/
def State.entryAt (s : State) (t : Nat) (c : Ctx) (x : Nat) : Nat :=
  if c.sys then (s.tile t).sysDict.num (48 * x) 48
  else (s.tile t).dict.num ((if (s.field c.fieldNum).member = 1 then dictHalf else 0) + 48 * (c.dbase + x)) 48

def State.fetch (s : State) (t : Nat) (c : Ctx) : Fetch :=
  let x := (s.codeHalf t c c.pc).toNat
  if x = 0xFFFF then (if c.litPaid then .bundle (s.literalAt t c (c.pc + 1) 24) else .escape)
  else if x = 0xFFFE || (if c.sys then 512 else c.dlimit) ≤ x then .dict x
  else .bundle (s.entryAt t c x)

/-- The bundle's WAIT, if it has one, is met (R386, R387). -/
def State.waitsMet (s : State) (c : Ctx) (n : Nat) : Bool :=
  match decodeBundle n with
  | .error _ => true
  | .ok l => l.all (fun x => match x.2 with
    | .ok i => c.waitMet (s.tcycOf c.fieldNum) i
    | .error _ => true)

/-! ## User interrupts (R209 to R212) -/

/-- Requests that have reached the cycle in which they may be taken. -/
def Ctx.uiPending (c : Ctx) (now : Nat) : Bool :=
  decide ((c.uiReqs.filter (fun p => decide (now < p + 2))).length < c.uistat.toNat % 256)

/-- The context's next bundle is a literal in its second cycle. -/
def Ctx.secondCycle (c : Ctx) (now : Nat) : Bool := c.litPaid && c.readyAt == now

/-- The context is in user mode and neither done nor halted, and nothing keeps it from a boundary now. -/
def Ctx.atBoundary (c : Ctx) (now : Nat) : Bool := !c.sys && !c.done && !c.halted && decide (c.readyAt ≤ now)

/-- A user interrupt is taken now (R210). -/
def Ctx.uiDue (c : Ctx) (now : Nat) : Bool :=
  c.atBoundary now && bitAt c.uivec.toNat 31 && c.uiPending now && !c.active && c.phase.isNone && c.dly == 0
    && !c.secondCycle now

/-- A user interrupt is due in a context of a field whose tcyc runs. -/
def State.uiReady (s : State) (t h : Nat) : Bool :=
  let c := s.ctx t h
  c.field.isSome && (s.field c.fieldNum).ticking && c.uiDue s.now

/-- Entry to the handler: uipc, PEND, ACTIVE, and the handler's PC in a segment of `seg` halfwords. -/
def Ctx.enterHandler (c : Ctx) (now seg : Nat) : Ctx :=
  { c with
    uipc := .ofNat 32 c.pc, uistat := (c.uistat - 1) ||| 0x100, pc := c.uivec.toNat % seg, litPaid := false, pline := none, uiPline := c.pline,
    uiReqs := c.uiReqs.filter (fun p => decide (now < p + 2)) }

/-- A context enters its handler now. -/
def State.enterUi (s : State) (t h : Nat) : State :=
  s.modCtx t h (fun c => c.enterHandler s.now (s.segSize c.fieldNum))

/-- ACTIVE clears, the main set returns (R212), and a partial tile that the interrupt went before goes on at its line (R334). -/
def Ctx.leaveHandler (c : Ctx) : Ctx :=
  { c with
    uistat := c.uistat &&& ~~~0x100, back := false, uiPline := none,
    pline := match c.uiPline with
      | some k => some k
      | none => c.pline }

/-! ## The return of UIRET and of TRET (R212, R330, R398, R399) -/

/-- The last delay bundle of UIRET has issued: the next bundle is the one at uipc, or, under a delegated record, the one at RPC
with its sequencer state. -/
def Ctx.afterUiret (c : Ctx) : Ctx :=
  let c := { c with uiret := false, back := true }
  if c.rec0 && c.deleg then c.restoreSeq 0 else c

/-- The context as its next bundle finds it: after UIRET, ACTIVE is clear; TRET leaves a handler as the trap found it (R213). -/
def Ctx.asNext (c : Ctx) : Ctx :=
  if !c.back then c else if c.rec0 && !c.deleg then { c with back := false } else c.leaveHandler

/-- The first bundle after UIRET or TRET comes to its boundary: ACTIVE clears after UIRET; a record that is to be replayed is, with
this cycle as g. -/
def State.comeBack (s : State) (t h : Nat) : State :=
  let c := s.ctx t h
  if !c.back then s
  else if c.rec0 then
    if (badDesc c.catchMem 0x400 (min 192 (c.catchMem.num 0 4))).isSome then s.returnFrom t h s.now false
    else
      let keep (x : Ctx) : Ctx := { x with
        uistat := c.asNext.uistat, back := false, pc := c.pc, dly := c.dly, dtgt := c.dtgt, litPaid := c.litPaid, loops := c.loops,
        pline := c.pline }
      (s.returnFrom t h s.now false).modCtx t h keep
  else s.setCtx t h c.asNext

/-- UI_ENTRY (R210). -/
def execUiEntry (tile : BitVec 8) (hw : BitVec 2) (s : State) : Out3 :=
  let t := tile.toNat
  let h := hw.toNat
  .next (if s.uiReady t h then (s.comeBack t h).enterUi t h else s)

/-! ## Traps at a boundary (R322 to R324) -/

/-- A context in which no reported trap may be taken now: in system mode, or under a delegated record that UIRET has not returned
from. -/
def Ctx.trapsWait (c : Ctx) (now : Nat) : Bool := !c.atBoundary now || (c.rec0 && c.deleg && !c.back)

/-- The context is in a handler whose record is open (R328). -/
def Ctx.inHandler (c : Ctx) : Bool := c.sys || (c.rec0 && c.deleg && !c.back)

/-- The SOFT trap of a TRAP that has issued is due: in a handler the one of the handler's own TRAP, elsewhere the one of the program's,
which may have waited for the return from a trap that came before it (R324, R397). -/
def Ctx.softNow (c : Ctx) (now : Nat) : Option (Nat × Nat) :=
  match c.softDue with
  | some (pc, k, inside) =>
    if decide (c.readyAt ≤ now) && !c.halted && !c.done && inside == c.inHandler then some (pc, k) else none
  | none => none

def isMachine (p : Pending) : Bool := p.trap.cause == 11

/-- The first of a list by a key. -/
def firstBy (key : Pending → Nat) : List Pending → Option Pending
  | [] => none
  | p :: ps =>
    match firstBy key ps with
    | none => some p
    | some q => if key q < key p then some q else some p

/-- The reported trap to take: MACHINE, the earliest reported; else the oldest causing bundle, but not during PHASE. -/
def Ctx.pendingTrap (c : Ctx) (now : Nat) : Option Pending :=
  let l := c.pending.filter (fun p => decide (p.due ≤ now))
  match firstBy (·.due) (l.filter isMachine) with
  | some p => some p
  | none => if c.phase.isSome then none else firstBy (·.seq) l

/-- A service of an eviction or a restore issues once the field's own commands are complete (R485). -/
def State.serves (s : State) (t : Nat) (c : Ctx) : Bool :=
  let f := c.fieldNum
  let x := s.field f
  (x.state == .evicting || x.state == .restoring) && c.sys && c.inService && (s.tile t).sysLoaded
    && !s.cmds.any (fun k => k.field == f && !k.svc)

/-- The trap of a boundary that no bundle's issue raises, with where it is taken, and the traps that stay pending: a reported trap;
the SOFT trap of the bundle before (log entry 102); single step, in a delegated handler too (R322). -/
def State.boundaryTrap (s : State) (t h : Nat) (c : Ctx) : Option (Trap × TrapAt × List Pending) :=
  let m := (s.field c.fieldNum).member
  let run := (s.tile t).running.rd (2 * m) m == h
  let open_ := !c.trapsWait s.now
  match (if open_ then c.pendingTrap s.now else none) with
  | some p =>
    some (p.trap, ⟨c.pc, p.pc.getD c.pc, true, c.litPaid, run⟩,
      (c.pending.filter (fun q => q.due != p.due || q.seq != p.seq || q.pc != p.pc || q.trap != p.trap)))
  | none =>
    match c.softNow s.now with
    | some (pc, k) => some (⟨9, k % 256, slS, k, 0⟩, ⟨c.pc, pc, false, c.litPaid, run⟩, c.pending)
    | none =>
      if !c.atBoundary s.now || c.phase.isSome then none
      else c.stepDue.map (fun pc => (⟨10, 2, 0, 0, 0⟩, ⟨c.pc, pc, false, c.litPaid, run⟩, c.pending))

/-- A trap is due at this boundary. -/
def State.trapDue (s : State) (t h : Nat) : Bool :=
  let c := s.ctx t h
  c.field.isSome && ((s.field c.fieldNum).ticking || s.serves t c) && (s.boundaryTrap t h c).isSome

/-- Take the trap of a boundary, after the return that the boundary ends, if any. -/
def State.takeBoundary (s : State) (t h : Nat) : State :=
  match s.boundaryTrap t h (s.ctx t h) with
  | none => s
  | some (tr, w, left) =>
    let s := s.comeBack t h
    if (s.ctx t h).halted then s
    else
      let clear (c : Ctx) : Ctx := { c with pending := left, softDue := if tr.cause = 9 then none else c.softDue }
      let kept := if tr.cause = 9 then none else (s.ctx t h).softDue
      ((s.modCtx t h clear).takeTrap t h tr w).modCtx t h (fun c => { c with softDue := kept })

/-- REPORTED_TRAP_TAKE (R323, R324). -/
def execReportedTrapTake (tile : BitVec 8) (hw : BitVec 2) (s : State) : Out3 :=
  .next (if s.trapDue tile.toNat hw.toNat then s.takeBoundary tile.toNat hw.toNat else s)

/-! ## The system handler where its code is not known (R327, R328) -/

/-- The service of a trap, as a whole, in place of the handler's first bundle: a machine-check record for MACHINE 0x01 and
0x06, and the context halts. -/
def State.systemService (s : State) (t h : Nat) : State :=
  let c := s.ctx t h
  let i := c.tinfo0.toNat
  let s :=
    if fld i 0 8 == 11 && (fld i 8 8 == 1 || fld i 8 8 == 6) then
      s.machineCheck (if fld i 8 8 = 1 then c.tinfo2.toNat % 256 else 9) t c.fieldNum c.tinfo1.toNat
    else s
  s.modCtx t h Ctx.halt

/-! ## Which contexts may issue (R170, R171, R181, R332, R335) -/

/-- Nothing but its own bundle decides whether the context issues now. -/
def State.mayIssue (s : State) (t : Nat) (c : Ctx) : Bool :=
  match c.field with
  | none => false
  | some f =>
    s.live f && ((s.field f).ticking || s.serves t c) && !c.halted && !c.done && decide (c.readyAt ≤ s.now)
      && c.yieldAt != some s.now && !c.phase.any (fun w => w.sys == c.sys)

/-- The system handler's code is not known, and no service of an eviction or a restore is in progress. -/
def State.wholeService (s : State) (t : Nat) (c : Ctx) : Bool := c.sys && !(s.tile t).sysLoaded && !c.inService

/-- The context is ready: not stalled (R170). -/
def State.ready (s : State) (t h : Nat) : Bool :=
  let c := s.ctx t h
  s.mayIssue t c &&
    (s.wholeService t c ||
      (let c' := c.asNext
       (c.back && c'.uiDue s.now) ||
        (match s.fetch t c' with
         | .bundle n => s.waitsMet c' n
         | _ => true)))

/-- Ready sibling `a` comes before `b` when the selector moves (R171). -/
def Ctx.goesBefore (a b : Ctx) : Bool :=
  let p (c : Ctx) : Nat := c.ctxpri.toNat % 4
  let age (c : Ctx) : Nat := match c.lastIssue with
    | none => 0
    | some n => n + 1
  if p a = p b then decide (age a < age b) else decide (p b < p a)

def State.bestOf (s : State) (t : Nat) : List Nat → Option Nat
  | [] => none
  | h :: hs =>
    match State.bestOf s t hs with
    | none => some h
    | some k => if (s.ctx t k).goesBefore (s.ctx t h) then some k else some h

/-- The hardware contexts of a tile that belong to a member's half, or with no group to the field. -/
def State.siblings (s : State) (t m : Nat) : List Nat :=
  [0, 1, 2, 3].filter (fun h => match (s.ctx t h).field with
    | some f => (s.field f).member == m
    | none => false)

/-- The sibling that the selector gives the issue width to (R171). -/
def State.selected (s : State) (t m : Nat) : Option Nat :=
  let rs := (s.siblings t m).filter (s.ready t)
  let r := (s.tile t).running.rd (2 * m) m
  if rs.contains r then some r else s.bestOf t rs

/-! ## Engine starts (R206) and the empty bundle (R340) -/

/-- ENGINE_START: the engine begins at T. -/
def execEngineStart (tile : BitVec 8) (eng : Engine) (id : Nat) (s : State) : Out3 :=
  match eng with
  | .array => .next (s.startArray tile.toNat id)
  | .mesh => .next (s.startMesh tile.toNat id)
  | .link => .next (s.startLink tile.toNat id)

/-- EMPTY_BUNDLE: it occupies its cycle and has no other effect. -/
def execEmptyBundle (s : State) : Out3 := .next s

/-! ## Destinations and direct sources of a bundle (R187, R190, R357) -/

/-- A name that a slot writes.  Tiles are the bytes of register space that they cover. -/
inductive DestName where
  | sreg (n : Nat)
  | areg (n : Nat)
  | preg (n : Nat)
  | vreg (n : Nat)
  | special (n : Nat)
  | queue (n : Nat)
  | bytes (base len : Nat)
deriving DecidableEq, Repr

def DestName.meet (a b : DestName) : Bool :=
  match a, b with
  | .bytes x m, .bytes y n => meets x m y n
  | _, _ => a == b

/-- The bytes that view register n covers; none for a reserved type. -/
def Ctx.tileDest (c : Ctx) (n : Nat) : List DestName :=
  let v := c.vreg (n % 64)
  if 9 < vType v then [] else [.bytes (vBase v) (footprint (vType v))]

def when_ (b : Bool) (l : List DestName) : List DestName := if b then l else []

/-- The destinations that the encoding of a container names, for an assigned OP.  The fields are read where the formats of R346
to R348 and the tables of each chapter place them.  An image that an A-slot instruction writes covers its own bytes (R452, R455). -/
def Ctx.dests (c : Ctx) (sl : Slot) (w : Nat) : List DestName :=
  let op := if sl = .g then fld w 43 5 else fld w 57 7
  let pi (bit lo : Nat) : List DestName := when_ (bitAt w bit) [.areg (fld w lo 4)]
  let fv (bit lo : Nat) : List DestName := when_ (bitAt w bit) (c.tileDest (fld w lo 6))
  match sl with
  | .s =>
    if 0x01 ≤ op && op ≤ 0x0E || op = 0x11 then [.sreg (fld w 48 5)]
    else if op = 0x0F || op = 0x10 then [.preg (fld w 50 3)]
    else if op = 0x14 then [.sreg 31]
    else if op = 0x1A || op = 0x1D then [.sreg (fld w 48 5)]
    else if op = 0x1C then [.vreg (fld w 36 6)]
    else if op = 0x1E then [.special (fld w 36 12)]
    else []
  | .g =>
    if op = 1 || op = 2 then [.areg (fld w 35 4)]
    else if op = 3 then (if bitAt w 38 then [.sreg (fld w 29 5)] else [.areg (fld w 34 4)])
    else if op = 5 then [.areg (fld w 24 4)]
    else if op = 6 then [.queue (fld w 36 3)]
    else []
  | .a =>
    if op = 0x08 && fld w 51 2 = 1 then [.bytes (vBase (c.vreg (fld w 45 6))) quarterBytes]
    else if op = 0x0B then [.bytes (vBase (c.vreg (fld w 43 6))) bankBytes]
    else if op = 6 then
      (c.tileDest (fld w 25 6)).map (fun d => match d with
        | .bytes b n => if fld w 7 2 = 3 then .bytes b (max n 8192) else .bytes b n
        | d => d)
    else []
  | .m =>
    match op with
    | 0x01 => .sreg (fld w 48 5) :: (pi 37 39 ++ fv 28 22)
    | 0x02 => pi 37 39 ++ fv 28 22
    | 0x03 => c.tileDest (fld w 47 6) ++ pi 36 38 ++ fv 25 19
    | 0x04 => pi 36 38 ++ fv 25 19
    | 0x05 => .sreg (fld w 48 5) :: (pi 37 39 ++ fv 17 11)
    | 0x06 => pi 36 38 ++ fv 23 17
    | 0x08 => pi 38 40
    | 0x09 => [.sreg (fld w 34 5)]
    | 0x0A => .sreg (fld w 26 5) :: when_ (bitAt w 52) (c.tileDest (fld w 46 6))
    | 0x0C => when_ (!bitAt w 28) (c.tileDest (fld w 22 6))
    | 0x0D => [.sreg (fld w 21 5)]
    | 0x0E => [.sreg (fld w 21 5)]
    | 0x0F => [.sreg (fld w 21 5)]
    | 0x10 => [.sreg (fld w 21 5)]
    | _ => []
  | _ =>
    let d := fld w 47 6
    if op = 0x16 || op = 0x21 then [.sreg (d % 32)]
    else if op = 0x1F then [.vreg d]
    else if op = 0x1D then
      let n := fld w 4 2 + 1
      let n := if vType (c.vreg d) = 6 then (n + 1) / 2 else n
      (List.range n).flatMap (fun k => if d + k < 64 then c.tileDest (d + k) else [])
    else c.tileDest d

/-- Positions of a V-slot container that name a tile directly (R190, R344). -/
def directSources (w : Nat) : Nat :=
  let op := fld w 57 7
  let b := vBody (fld w 0 53)
  let mode00 (x : Nat) : Nat := b2n (fld x 6 2 == 0)
  let usesA := op != 0x15 && op != 0x20 && op != 0x1F
  let bin := [0x01, 0x02, 0x03, 0x04, 0x05, 0x06, 0x07, 0x0C, 0x0D, 0x0E, 0x11, 0x12].contains op
  let shift := (op == 0x0F || op == 0x10) && !bitAt b.opx 14
  let usesB := ((bin || shift) && !b.sbs) || op == 0x22 || (op == 0x1D && bitAt b.opx 7)
  let usesC := (op == 0x04 || op == 0x12) && !b.scs
  (if usesA then mode00 b.pa else 0) + (if usesB then mode00 b.pb else 0) + (if usesC then mode00 b.pc else 0)

/-- A present slot of a bundle: its container and what that decodes to. -/
structure SlotIn where
  slot : Slot
  word : Nat
  dec  : Dec

/-- The OP is assigned in its slot (R357). -/
def SlotIn.assigned (x : SlotIn) : Bool :=
  match x.dec with
  | .error .unassigned => false
  | .error .v0Only => false
  | _ => true

def anyMeet (xs ys : List DestName) : Bool := xs.any (fun x => ys.any x.meet)

/-- Two slots name one destination. -/
def Ctx.clash (c : Ctx) : List SlotIn → Bool
  | [] => false
  | x :: xs => xs.any (fun y => anyMeet (c.dests x.slot x.word) (c.dests y.slot y.word)) || Ctx.clash c xs

/-- ILLEGAL 0x02 of the bundle as a whole (R187, R190). -/
def Ctx.wholeTrap (c : Ctx) (xs : List SlotIn) : Option Trap :=
  let xs := xs.filter SlotIn.assigned
  let direct := sumNat ((xs.filter (fun x => x.slot == .v0 || x.slot == .v1)).map (fun x => directSources x.word))
  if c.clash xs || decide (2 < direct) then some ⟨1, 2, 0, 0, 0⟩ else none

/-- tinfo0.SLOT of a slot. -/
def Slot.num : Slot → Nat
  | .a => 1
  | .v0 => 2
  | .v1 => 3
  | .m => 4
  | .s => 5
  | .g => 6

/-- ILLEGAL of a container that is no instruction (R321, R357). -/
def SlotIn.errTrap (x : SlotIn) (e : DecodeError) : Trap :=
  ⟨1, e.sub, Slot.num x.slot, 0, if e.sub = 1 then x.word else 0⟩

end Sys2Proof.Machine
end

