-- ==== Sys2Proof/Machine/Dispatch.lean ====
section
/-! DEFINITION. One arm per step of the KX-4800, each a direct call of its meaning. -/

namespace Sys2Proof.Machine

def exec (i : Instr) (s : State) : Host.Outcome State Fault Refusal :=
  match i with
  | .selfTest x0 => Sys2Proof.Machine.execSelfTest x0 s
  | .bringupConfig x0 => Sys2Proof.Machine.execBringupConfig x0 s
  | .tempSample x0 => Sys2Proof.Machine.execTempSample x0 s
  | .droopWarning x0 => Sys2Proof.Machine.execDroopWarning x0 s
  | .droopFailure x0 => Sys2Proof.Machine.execDroopFailure x0 s
  | .uncorrectableError x0 => Sys2Proof.Machine.execUncorrectableError x0 s
  | .controlStoreError x0 x1 => Sys2Proof.Machine.execControlStoreError x0 x1 s
  | .colBudgetWrite x0 => Sys2Proof.Machine.execColBudgetWrite x0 s
  | .passAnswer x0 x1 x2 => Sys2Proof.Machine.execPassAnswer x0 x1 x2 s
  | .portTrainingDone x0 x1 => Sys2Proof.Machine.execPortTrainingDone x0 x1 s
  | .torHopWrite x0 => Sys2Proof.Machine.execTorHopWrite x0 s
  | .timeFlitReceive x0 x1 x2 => Sys2Proof.Machine.execTimeFlitReceive x0 x1 x2 s
  | .dataFlitReceive x0 x1 x2 => Sys2Proof.Machine.execDataFlitReceive x0 x1 x2 s
  | .portRetrain x0 => Sys2Proof.Machine.execPortRetrain x0 s
  | .linkTransferStart x0 x1 => Sys2Proof.Machine.execLinkTransferStart x0 x1 s
  | .lsendComplete x0 x1 => Sys2Proof.Machine.execLsendComplete x0 x1 s
  | .lrecvComplete x0 x1 => Sys2Proof.Machine.execLrecvComplete x0 x1 s
  | .lredComplete x0 x1 => Sys2Proof.Machine.execLredComplete x0 x1 s
  | .lbcstComplete x0 x1 => Sys2Proof.Machine.execLbcstComplete x0 x1 s
  | .bcallArrive x0 => Sys2Proof.Machine.execBcallArrive x0 s
  | .callStart x0 x1 => Sys2Proof.Machine.execCallStart x0 x1 s
  | .microwordStep x0 x1 => Sys2Proof.Machine.execMicrowordStep x0 x1 s
  | .hbmStandardAccess x0 x1 x2 x3 x4 x5 => Sys2Proof.Machine.execHbmStandardAccess x0 x1 x2 x3 x4 x5 s
  | .bar0BadAccess x0 x1 => Sys2Proof.Machine.execBar0BadAccess x0 x1 s
  | .registerWrite x0 x1 => Sys2Proof.Machine.execRegisterWrite x0 x1 s
  | .qCtlWrite x0 x1 => Sys2Proof.Machine.execQCtlWrite x0 x1 s
  | .qReset x0 x1 => Sys2Proof.Machine.execQReset x0 x1 s
  | .qKick x0 x1 => Sys2Proof.Machine.execQKick x0 x1 s
  | .slotRead x0 => Sys2Proof.Machine.execSlotRead x0 s
  | .sealTimeout x0 => Sys2Proof.Machine.execSealTimeout x0 s
  | .packetStart x0 => Sys2Proof.Machine.execPacketStart x0 s
  | .copyComplete x0 x1 => Sys2Proof.Machine.execCopyComplete x0 x1 s
  | .evHostWrite x0 x1 => Sys2Proof.Machine.execEvHostWrite x0 x1 s
  | .stagingRead x0 x1 => Sys2Proof.Machine.execStagingRead x0 x1 s
  | .stagingWrite x0 x1 => Sys2Proof.Machine.execStagingWrite x0 x1 s
  | .fqConsWrite x0 => Sys2Proof.Machine.execFqConsWrite x0 s
  | .imageLoaded x0 x1 => Sys2Proof.Machine.execImageLoaded x0 x1 s
  | .fieldStart x0 => Sys2Proof.Machine.execFieldStart x0 s
  | .freeze x0 => Sys2Proof.Machine.execFreeze x0 s
  | .fieldQuiet x0 => Sys2Proof.Machine.execFieldQuiet x0 s
  | .savesComplete x0 => Sys2Proof.Machine.execSavesComplete x0 s
  | .restoreComplete x0 => Sys2Proof.Machine.execRestoreComplete x0 s
  | .fieldResume x0 => Sys2Proof.Machine.execFieldResume x0 s
  | .windowDrowsy x0 x1 => Sys2Proof.Machine.execWindowDrowsy x0 x1 s
  | .fieldComplete x0 => Sys2Proof.Machine.execFieldComplete x0 s
  | .noticePlaced x0 x1 => Sys2Proof.Machine.execNoticePlaced x0 x1 s
  | .noticeFreeze x0 x1 => Sys2Proof.Machine.execNoticeFreeze x0 x1 s
  | .noticeResume x0 x1 => Sys2Proof.Machine.execNoticeResume x0 x1 s
  | .noticeArrived x0 x1 => Sys2Proof.Machine.execNoticeArrived x0 x1 s
  | .noticeDone x0 x1 => Sys2Proof.Machine.execNoticeDone x0 x1 s
  | .arrivedNoticeResend x0 => Sys2Proof.Machine.execArrivedNoticeResend x0 s
  | .phaseRelease x0 => Sys2Proof.Machine.execPhaseRelease x0 s
  | .resultLanding x0 x1 x2 => Sys2Proof.Machine.execResultLanding x0 x1 x2 s
  | .reportedTrapTake x0 x1 => Sys2Proof.Machine.execReportedTrapTake x0 x1 s
  | .protViolationReport x0 => Sys2Proof.Machine.execProtViolationReport x0 s
  | .uiEntry x0 x1 => Sys2Proof.Machine.execUiEntry x0 x1 s
  | .engineStart x0 x1 x2 => Sys2Proof.Machine.execEngineStart x0 x1 x2 s
  | .streamRowAdmit x0 x1 x2 => Sys2Proof.Machine.execStreamRowAdmit x0 x1 x2 s
  | .accumulatorLanding x0 x1 x2 x3 x4 => Sys2Proof.Machine.execAccumulatorLanding x0 x1 x2 x3 x4 s
  | .planeWrite x0 x1 => Sys2Proof.Machine.execPlaneWrite x0 x1 s
  | .drainWrite x0 x1 => Sys2Proof.Machine.execDrainWrite x0 x1 s
  | .aclrWrite x0 x1 => Sys2Proof.Machine.execAclrWrite x0 x1 s
  | .meshBeatSend x0 x1 x2 => Sys2Proof.Machine.execMeshBeatSend x0 x1 x2 s
  | .meshBeatReceive x0 x1 x2 => Sys2Proof.Machine.execMeshBeatReceive x0 x1 x2 s
  | .homeSliceStoreAccept x0 => Sys2Proof.Machine.execHomeSliceStoreAccept x0 s
  | .globalLoadComplete x0 x1 => Sys2Proof.Machine.execGlobalLoadComplete x0 x1 s
  | .atomicArrive x0 x1 => Sys2Proof.Machine.execAtomicArrive x0 x1 s
  | .faultBatchClose x0 => Sys2Proof.Machine.execFaultBatchClose x0 s
  | .fenceComplete x0 => Sys2Proof.Machine.execFenceComplete x0 s
  | .cpyComplete x0 x1 => Sys2Proof.Machine.execCpyComplete x0 x1 s
  | .cpyzComplete x0 x1 => Sys2Proof.Machine.execCpyzComplete x0 x1 s
  | .wstoreComplete x0 => Sys2Proof.Machine.execWstoreComplete x0 s
  | .cbstComplete x0 => Sys2Proof.Machine.execCbstComplete x0 s
  | .hintComplete x0 => Sys2Proof.Machine.execHintComplete x0 s
  | .tlbInvalidateDone x0 => Sys2Proof.Machine.execTlbInvalidateDone x0 s
  | .csaveComplete x0 => Sys2Proof.Machine.execCsaveComplete x0 s
  | .cloadComplete x0 => Sys2Proof.Machine.execCloadComplete x0 s
  | .addReg x0 x1 x2 x3 => Sys2Proof.Machine.execAddReg x0 x1 x2 x3 s
  | .addImm x0 x1 x2 x3 => Sys2Proof.Machine.execAddImm x0 x1 x2 x3 s
  | .subReg x0 x1 x2 x3 => Sys2Proof.Machine.execSubReg x0 x1 x2 x3 s
  | .subImm x0 x1 x2 x3 => Sys2Proof.Machine.execSubImm x0 x1 x2 x3 s
  | .mulReg x0 x1 x2 x3 => Sys2Proof.Machine.execMulReg x0 x1 x2 x3 s
  | .mulImm x0 x1 x2 x3 => Sys2Proof.Machine.execMulImm x0 x1 x2 x3 s
  | .mulhReg x0 x1 x2 x3 => Sys2Proof.Machine.execMulhReg x0 x1 x2 x3 s
  | .mulhImm x0 x1 x2 x3 => Sys2Proof.Machine.execMulhImm x0 x1 x2 x3 s
  | .andReg x0 x1 x2 x3 => Sys2Proof.Machine.execAndReg x0 x1 x2 x3 s
  | .andImm x0 x1 x2 x3 => Sys2Proof.Machine.execAndImm x0 x1 x2 x3 s
  | .orReg x0 x1 x2 x3 => Sys2Proof.Machine.execOrReg x0 x1 x2 x3 s
  | .orImm x0 x1 x2 x3 => Sys2Proof.Machine.execOrImm x0 x1 x2 x3 s
  | .xorReg x0 x1 x2 x3 => Sys2Proof.Machine.execXorReg x0 x1 x2 x3 s
  | .xorImm x0 x1 x2 x3 => Sys2Proof.Machine.execXorImm x0 x1 x2 x3 s
  | .shlReg x0 x1 x2 x3 => Sys2Proof.Machine.execShlReg x0 x1 x2 x3 s
  | .shlImm x0 x1 x2 x3 => Sys2Proof.Machine.execShlImm x0 x1 x2 x3 s
  | .shrReg x0 x1 x2 x3 => Sys2Proof.Machine.execShrReg x0 x1 x2 x3 s
  | .shrImm x0 x1 x2 x3 => Sys2Proof.Machine.execShrImm x0 x1 x2 x3 s
  | .sraReg x0 x1 x2 x3 => Sys2Proof.Machine.execSraReg x0 x1 x2 x3 s
  | .sraImm x0 x1 x2 x3 => Sys2Proof.Machine.execSraImm x0 x1 x2 x3 s
  | .minReg x0 x1 x2 x3 => Sys2Proof.Machine.execMinReg x0 x1 x2 x3 s
  | .minImm x0 x1 x2 x3 => Sys2Proof.Machine.execMinImm x0 x1 x2 x3 s
  | .maxReg x0 x1 x2 x3 => Sys2Proof.Machine.execMaxReg x0 x1 x2 x3 s
  | .maxImm x0 x1 x2 x3 => Sys2Proof.Machine.execMaxImm x0 x1 x2 x3 s
  | .bitc x0 x1 x2 x3 => Sys2Proof.Machine.execBitc x0 x1 x2 x3 s
  | .li x0 x1 x2 => Sys2Proof.Machine.execLi x0 x1 x2 s
  | .cmpReg x0 x1 x2 x3 x4 => Sys2Proof.Machine.execCmpReg x0 x1 x2 x3 x4 s
  | .cmpImm x0 x1 x2 x3 x4 => Sys2Proof.Machine.execCmpImm x0 x1 x2 x3 x4 s
  | .plog x0 x1 x2 x3 x4 => Sys2Proof.Machine.execPlog x0 x1 x2 x3 x4 s
  | .sel x0 x1 x2 x3 x4 => Sys2Proof.Machine.execSel x0 x1 x2 x3 x4 s
  | .br x0 x1 x2 x3 => Sys2Proof.Machine.execBr x0 x1 x2 x3 s
  | .jmpLabel x0 x1 => Sys2Proof.Machine.execJmpLabel x0 x1 s
  | .jmpReg x0 x1 => Sys2Proof.Machine.execJmpReg x0 x1 s
  | .callLabel x0 x1 => Sys2Proof.Machine.execCallLabel x0 x1 s
  | .callReg x0 x1 => Sys2Proof.Machine.execCallReg x0 x1 s
  | .ret x0 x1 => Sys2Proof.Machine.execRet x0 x1 s
  | .loopReg x0 x1 x2 => Sys2Proof.Machine.execLoopReg x0 x1 x2 s
  | .loopImm x0 x1 x2 => Sys2Proof.Machine.execLoopImm x0 x1 x2 s
  | .lbrk x0 x1 => Sys2Proof.Machine.execLbrk x0 x1 s
  | .waitImm x0 x1 x2 => Sys2Proof.Machine.execWaitImm x0 x1 x2 s
  | .waitReg x0 x1 x2 => Sys2Proof.Machine.execWaitReg x0 x1 x2 s
  | .waitTcyc x0 x1 => Sys2Proof.Machine.execWaitTcyc x0 x1 s
  | .phase x0 x1 => Sys2Proof.Machine.execPhase x0 x1 s
  | .pass x0 x1 x2 => Sys2Proof.Machine.execPass x0 x1 x2 s
  | .passCycleReg x0 x1 x2 x3 => Sys2Proof.Machine.execPassCycleReg x0 x1 x2 x3 s
  | .yield x0 => Sys2Proof.Machine.execYield x0 s
  | .yieldField x0 => Sys2Proof.Machine.execYieldField x0 s
  | .view x0 x1 x2 => Sys2Proof.Machine.execView x0 x1 x2 s
  | .viewCopy x0 x1 x2 => Sys2Proof.Machine.execViewCopy x0 x1 x2 s
  | .viewBase x0 x1 x2 x3 => Sys2Proof.Machine.execViewBase x0 x1 x2 x3 s
  | .viewGen x0 x1 x2 => Sys2Proof.Machine.execViewGen x0 x1 x2 s
  | .gets x0 x1 x2 => Sys2Proof.Machine.execGets x0 x1 x2 s
  | .setsReg x0 x1 x2 => Sys2Proof.Machine.execSetsReg x0 x1 x2 s
  | .setsImm x0 x1 x2 => Sys2Proof.Machine.execSetsImm x0 x1 x2 s
  | .setsOr x0 x1 x2 => Sys2Proof.Machine.execSetsOr x0 x1 x2 s
  | .setsClr x0 x1 x2 => Sys2Proof.Machine.execSetsClr x0 x1 x2 s
  | .trap x0 x1 => Sys2Proof.Machine.execTrap x0 x1 s
  | .tret x0 => Sys2Proof.Machine.execTret x0 s
  | .uiret x0 => Sys2Proof.Machine.execUiret x0 s
  | .done x0 => Sys2Proof.Machine.execDone x0 s
  | .aaddReg x0 x1 x2 x3 => Sys2Proof.Machine.execAaddReg x0 x1 x2 x3 s
  | .aaddImm x0 x1 x2 x3 => Sys2Proof.Machine.execAaddImm x0 x1 x2 x3 s
  | .ali x0 x1 x2 => Sys2Proof.Machine.execAli x0 x1 x2 s
  | .amovToA x0 x1 x2 => Sys2Proof.Machine.execAmovToA x0 x1 x2 s
  | .amovToS x0 x1 x2 => Sys2Proof.Machine.execAmovToS x0 x1 x2 s
  | .acfgLin x0 x1 x2 => Sys2Proof.Machine.execAcfgLin x0 x1 x2 s
  | .acfgMod x0 x1 x2 x3 => Sys2Proof.Machine.execAcfgMod x0 x1 x2 x3 s
  | .acfgBrev x0 x1 x2 x3 => Sys2Proof.Machine.execAcfgBrev x0 x1 x2 x3 s
  | .lidx x0 x1 x2 x3 => Sys2Proof.Machine.execLidx x0 x1 x2 x3 s
  | .pf x0 x1 x2 => Sys2Proof.Machine.execPf x0 x1 x2 s
  | .vadd x0 x1 x2 x3 x4 x5 => Sys2Proof.Machine.execVadd x0 x1 x2 x3 x4 x5 s
  | .vsub x0 x1 x2 x3 x4 x5 => Sys2Proof.Machine.execVsub x0 x1 x2 x3 x4 x5 s
  | .vmul x0 x1 x2 x3 x4 x5 => Sys2Proof.Machine.execVmul x0 x1 x2 x3 x4 x5 s
  | .vfma x0 x1 x2 x3 x4 x5 x6 => Sys2Proof.Machine.execVfma x0 x1 x2 x3 x4 x5 x6 s
  | .vmin x0 x1 x2 x3 => Sys2Proof.Machine.execVmin x0 x1 x2 x3 s
  | .vmax x0 x1 x2 x3 => Sys2Proof.Machine.execVmax x0 x1 x2 x3 s
  | .vdiv x0 x1 x2 x3 x4 x5 => Sys2Proof.Machine.execVdiv x0 x1 x2 x3 x4 x5 s
  | .vsqrt x0 x1 x2 x3 x4 => Sys2Proof.Machine.execVsqrt x0 x1 x2 x3 x4 s
  | .vrsq x0 x1 x2 x3 x4 => Sys2Proof.Machine.execVrsq x0 x1 x2 x3 x4 s
  | .vexp2 x0 x1 x2 x3 x4 => Sys2Proof.Machine.execVexp2 x0 x1 x2 x3 x4 s
  | .vlog2 x0 x1 x2 x3 x4 => Sys2Proof.Machine.execVlog2 x0 x1 x2 x3 x4 s
  | .vcvt x0 x1 x2 x3 x4 => Sys2Proof.Machine.execVcvt x0 x1 x2 x3 x4 s
  | .vmov x0 x1 x2 => Sys2Proof.Machine.execVmov x0 x1 x2 s
  | .vsplat x0 x1 x2 x3 x4 => Sys2Proof.Machine.execVsplat x0 x1 x2 x3 x4 s
  | .vsel x0 x1 x2 x3 x4 => Sys2Proof.Machine.execVsel x0 x1 x2 x3 x4 s
  | .vand x0 x1 x2 x3 => Sys2Proof.Machine.execVand x0 x1 x2 x3 s
  | .vor x0 x1 x2 x3 => Sys2Proof.Machine.execVor x0 x1 x2 x3 s
  | .vxor x0 x1 x2 x3 => Sys2Proof.Machine.execVxor x0 x1 x2 x3 s
  | .vshlTile x0 x1 x2 x3 x4 => Sys2Proof.Machine.execVshlTile x0 x1 x2 x3 x4 s
  | .vshlScalar x0 x1 x2 x3 x4 => Sys2Proof.Machine.execVshlScalar x0 x1 x2 x3 x4 s
  | .vshlImm x0 x1 x2 x3 x4 => Sys2Proof.Machine.execVshlImm x0 x1 x2 x3 x4 s
  | .vshrTile x0 x1 x2 x3 x4 => Sys2Proof.Machine.execVshrTile x0 x1 x2 x3 x4 s
  | .vshrScalar x0 x1 x2 x3 x4 => Sys2Proof.Machine.execVshrScalar x0 x1 x2 x3 x4 s
  | .vshrImm x0 x1 x2 x3 x4 => Sys2Proof.Machine.execVshrImm x0 x1 x2 x3 x4 s
  | .vcmp x0 x1 x2 x3 x4 => Sys2Proof.Machine.execVcmp x0 x1 x2 x3 x4 s
  | .vmskPre x0 x1 x2 => Sys2Proof.Machine.execVmskPre x0 x1 x2 s
  | .vmskRect x0 x1 x2 x3 => Sys2Proof.Machine.execVmskRect x0 x1 x2 x3 s
  | .vmskRng x0 x1 x2 => Sys2Proof.Machine.execVmskRng x0 x1 x2 s
  | .vpop x0 x1 x2 => Sys2Proof.Machine.execVpop x0 x1 x2 s
  | .vextImm x0 x1 x2 x3 => Sys2Proof.Machine.execVextImm x0 x1 x2 x3 s
  | .vextReg x0 x1 x2 x3 => Sys2Proof.Machine.execVextReg x0 x1 x2 x3 s
  | .vrotr x0 x1 x2 x3 => Sys2Proof.Machine.execVrotr x0 x1 x2 x3 s
  | .vrotc x0 x1 x2 x3 => Sys2Proof.Machine.execVrotc x0 x1 x2 x3 s
  | .vbcr x0 x1 x2 x3 => Sys2Proof.Machine.execVbcr x0 x1 x2 x3 s
  | .vbcc x0 x1 x2 x3 => Sys2Proof.Machine.execVbcc x0 x1 x2 x3 s
  | .vshuf x0 x1 x2 x3 => Sys2Proof.Machine.execVshuf x0 x1 x2 x3 s
  | .vredr x0 x1 x2 x3 x4 x5 x6 => Sys2Proof.Machine.execVredr x0 x1 x2 x3 x4 x5 x6 s
  | .vredc x0 x1 x2 x3 x4 x5 x6 => Sys2Proof.Machine.execVredc x0 x1 x2 x3 x4 x5 x6 s
  | .vshpType x0 x1 x2 x3 x4 => Sys2Proof.Machine.execVshpType x0 x1 x2 x3 x4 s
  | .vshpKeep x0 x1 x2 x3 => Sys2Proof.Machine.execVshpKeep x0 x1 x2 x3 s
  | .vshpReg x0 x1 x2 => Sys2Proof.Machine.execVshpReg x0 x1 x2 s
  | .vqlt x0 x1 x2 x3 x4 x5 => Sys2Proof.Machine.execVqlt x0 x1 x2 x3 x4 x5 s
  | .vqltOffsets x0 x1 x2 x3 x4 x5 x6 => Sys2Proof.Machine.execVqltOffsets x0 x1 x2 x3 x4 x5 x6 s
  | .vboff x0 x1 x2 x3 => Sys2Proof.Machine.execVboff x0 x1 x2 x3 s
  | .amodeNorm x0 => Sys2Proof.Machine.execAmodeNorm x0 s
  | .amodeSplit x0 => Sys2Proof.Machine.execAmodeSplit x0 s
  | .wload x0 x1 x2 x3 x4 x5 => Sys2Proof.Machine.execWload x0 x1 x2 x3 x4 x5 s
  | .wloadg x0 x1 x2 x3 x4 x5 x6 => Sys2Proof.Machine.execWloadg x0 x1 x2 x3 x4 x5 x6 s
  | .wloadgImg x0 x1 x2 x3 x4 => Sys2Proof.Machine.execWloadgImg x0 x1 x2 x3 x4 s
  | .stream x0 x1 x2 x3 x4 x5 => Sys2Proof.Machine.execStream x0 x1 x2 x3 x4 x5 s
  | .streamt x0 x1 x2 x3 x4 x5 => Sys2Proof.Machine.execStreamt x0 x1 x2 x3 x4 x5 s
  | .drain x0 x1 x2 x3 x4 x5 x6 x7 x8 x9 => Sys2Proof.Machine.execDrain x0 x1 x2 x3 x4 x5 x6 x7 x8 x9 s
  | .aclr x0 x1 x2 => Sys2Proof.Machine.execAclr x0 x1 x2 s
  | .wstore x0 x1 x2 x3 => Sys2Proof.Machine.execWstore x0 x1 x2 x3 s
  | .wstorePlane x0 x1 x2 x3 x4 => Sys2Proof.Machine.execWstorePlane x0 x1 x2 x3 x4 s
  | .cbld x0 x1 x2 x3 x4 => Sys2Proof.Machine.execCbld x0 x1 x2 x3 x4 s
  | .cbldRestore x0 x1 x2 => Sys2Proof.Machine.execCbldRestore x0 x1 x2 s
  | .cbflip x0 x1 => Sys2Proof.Machine.execCbflip x0 x1 s
  | .cbst x0 x1 x2 x3 => Sys2Proof.Machine.execCbst x0 x1 x2 x3 s
  | .lds x0 x1 x2 x3 x4 x5 x6 x7 => Sys2Proof.Machine.execLds x0 x1 x2 x3 x4 x5 x6 x7 s
  | .sts x0 x1 x2 x3 x4 x5 x6 => Sys2Proof.Machine.execSts x0 x1 x2 x3 x4 x5 x6 s
  | .tld x0 x1 x2 x3 x4 x5 x6 x7 => Sys2Proof.Machine.execTld x0 x1 x2 x3 x4 x5 x6 x7 s
  | .tst x0 x1 x2 x3 x4 x5 x6 => Sys2Proof.Machine.execTst x0 x1 x2 x3 x4 x5 x6 s
  | .atom x0 x1 x2 x3 x4 x5 x6 x7 x8 => Sys2Proof.Machine.execAtom x0 x1 x2 x3 x4 x5 x6 x7 x8 s
  | .atomt x0 x1 x2 x3 x4 x5 x6 => Sys2Proof.Machine.execAtomt x0 x1 x2 x3 x4 x5 x6 s
  | .stash x0 x1 x2 x3 x4 x5 x6 => Sys2Proof.Machine.execStash x0 x1 x2 x3 x4 x5 x6 s
  | .stashOff x0 x1 => Sys2Proof.Machine.execStashOff x0 x1 s
  | .hintReq x0 x1 x2 x3 => Sys2Proof.Machine.execHintReq x0 x1 x2 x3 s
  | .hintFill x0 x1 x2 x3 => Sys2Proof.Machine.execHintFill x0 x1 x2 x3 s
  | .hintDrop x0 x1 x2 x3 => Sys2Proof.Machine.execHintDrop x0 x1 x2 x3 s
  | .hintL2 x0 x1 x2 x3 => Sys2Proof.Machine.execHintL2 x0 x1 x2 x3 s
  | .cpy x0 x1 x2 x3 x4 x5 x6 => Sys2Proof.Machine.execCpy x0 x1 x2 x3 x4 x5 x6 s
  | .cpyzSt x0 x1 x2 x3 x4 x5 x6 => Sys2Proof.Machine.execCpyzSt x0 x1 x2 x3 x4 x5 x6 s
  | .cpyzLd x0 x1 x2 x3 x4 x5 x6 => Sys2Proof.Machine.execCpyzLd x0 x1 x2 x3 x4 x5 x6 s
  | .msend x0 x1 x2 x3 => Sys2Proof.Machine.execMsend x0 x1 x2 x3 s
  | .mrecv x0 x1 x2 x3 => Sys2Proof.Machine.execMrecv x0 x1 x2 x3 s
  | .lsend x0 x1 x2 x3 x4 => Sys2Proof.Machine.execLsend x0 x1 x2 x3 x4 s
  | .lrecv x0 x1 x2 x3 x4 => Sys2Proof.Machine.execLrecv x0 x1 x2 x3 x4 s
  | .lred x0 x1 x2 x3 x4 => Sys2Proof.Machine.execLred x0 x1 x2 x3 x4 s
  | .lbcst x0 x1 x2 x3 x4 => Sys2Proof.Machine.execLbcst x0 x1 x2 x3 x4 s
  | .bcall x0 x1 x2 x3 => Sys2Proof.Machine.execBcall x0 x1 x2 x3 s
  | .fence x0 x1 x2 x3 => Sys2Proof.Machine.execFence x0 x1 x2 x3 s
  | .vjoin x0 => Sys2Proof.Machine.execVjoin x0 s
  | .tlbinv x0 x1 x2 x3 => Sys2Proof.Machine.execTlbinv x0 x1 x2 x3 s
  | .tlbinvDie x0 x1 x2 => Sys2Proof.Machine.execTlbinvDie x0 x1 x2 s
  | .csaveCtx x0 x1 x2 x3 => Sys2Proof.Machine.execCsaveCtx x0 x1 x2 x3 s
  | .csaveTile x0 x1 x2 => Sys2Proof.Machine.execCsaveTile x0 x1 x2 s
  | .csaveBlk x0 x1 x2 x3 => Sys2Proof.Machine.execCsaveBlk x0 x1 x2 x3 s
  | .csaveCode x0 x1 x2 => Sys2Proof.Machine.execCsaveCode x0 x1 x2 s
  | .cloadCtx x0 x1 x2 x3 => Sys2Proof.Machine.execCloadCtx x0 x1 x2 x3 s
  | .cloadTile x0 x1 x2 => Sys2Proof.Machine.execCloadTile x0 x1 x2 s
  | .cloadBlk x0 x1 x2 x3 => Sys2Proof.Machine.execCloadBlk x0 x1 x2 x3 s
  | .cloadCode x0 x1 x2 => Sys2Proof.Machine.execCloadCode x0 x1 x2 s
  | .correctedError x0 x1 x2 => Sys2Proof.Machine.execCorrectedError x0 x1 x2 s
  | .atomicComplete x0 => Sys2Proof.Machine.execAtomicComplete x0 s
  | .powerOnReset => Sys2Proof.Machine.execPowerOnReset s
  | .powerLoss => Sys2Proof.Machine.execPowerLoss s
  | .bootImageCheck => Sys2Proof.Machine.execBootImageCheck s
  | .colWindowStart => Sys2Proof.Machine.execColWindowStart s
  | .scorebookSecondTick => Sys2Proof.Machine.execScorebookSecondTick s
  | .scorebookCommit => Sys2Proof.Machine.execScorebookCommit s
  | .sbDataloRead => Sys2Proof.Machine.execSbDataloRead s
  | .sbSnap => Sys2Proof.Machine.execSbSnap s
  | .snapshotDone => Sys2Proof.Machine.execSnapshotDone s
  | .torTrain => Sys2Proof.Machine.execTorTrain s
  | .timeBaseStart => Sys2Proof.Machine.execTimeBaseStart s
  | .torTimeloRead => Sys2Proof.Machine.execTorTimeloRead s
  | .frameDeparture => Sys2Proof.Machine.execFrameDeparture s
  | .callEnd => Sys2Proof.Machine.execCallEnd s
  | .refreshBreak => Sys2Proof.Machine.execRefreshBreak s
  | .sessionTimeout => Sys2Proof.Machine.execSessionTimeout s
  | .abmEnter => Sys2Proof.Machine.execAbmEnter s
  | .abmExit => Sys2Proof.Machine.execAbmExit s
  | .matvec16 => Sys2Proof.Machine.execMatvec16 s
  | .axpy32 => Sys2Proof.Machine.execAxpy32 s
  | .norm2 => Sys2Proof.Machine.execNorm2 s
  | .optClip => Sys2Proof.Machine.execOptClip s
  | .optTrust => Sys2Proof.Machine.execOptTrust s
  | .req4 => Sys2Proof.Machine.execReq4 s
  | .devShutdown => Sys2Proof.Machine.execDevShutdown s
  | .devReset => Sys2Proof.Machine.execDevReset s
  | .devCommitsvn => Sys2Proof.Machine.execDevCommitsvn s
  | .functionLevelReset => Sys2Proof.Machine.execFunctionLevelReset s
  | .launch => Sys2Proof.Machine.execLaunch s
  | .park => Sys2Proof.Machine.execPark s
  | .resume => Sys2Proof.Machine.execResume s
  | .evict => Sys2Proof.Machine.execEvict s
  | .pair => Sys2Proof.Machine.execPair s
  | .eventSetWrite => Sys2Proof.Machine.execEventSetWrite s
  | .eventSetAdd => Sys2Proof.Machine.execEventSetAdd s
  | .eventWait => Sys2Proof.Machine.execEventWait s
  | .eventWaitMet => Sys2Proof.Machine.execEventWaitMet s
  | .copy => Sys2Proof.Machine.execCopy s
  | .fencePacket => Sys2Proof.Machine.execFencePacket s
  | .fwloadDevice => Sys2Proof.Machine.execFwloadDevice s
  | .fwloadBankUnit => Sys2Proof.Machine.execFwloadBankUnit s
  | .queryDevice => Sys2Proof.Machine.execQueryDevice s
  | .queryAttestation => Sys2Proof.Machine.execQueryAttestation s
  | .queryFieldState => Sys2Proof.Machine.execQueryFieldState s
  | .mailboxDone => Sys2Proof.Machine.execMailboxDone s
  | .faultRecordWrite => Sys2Proof.Machine.execFaultRecordWrite s
  | .schedulerDecision => Sys2Proof.Machine.execSchedulerDecision s
  | .emptyBundle => Sys2Proof.Machine.execEmptyBundle s
  | .orderlyShutdownComplete => Sys2Proof.Machine.execOrderlyShutdownComplete s

end Sys2Proof.Machine
end

