-- ==== Sys2Proof/Machine/Bundle.lean ====
section
/-! DEFINITION. A bundle's issue (R181 to R187, R323 to R325, R357): its checks in their order, its slots, and what its end does to
the sequencer; one selected context's turn; what is due in a cycle, and the cycle's end. -/

namespace Sys2Proof.Machine

open Sys2Proof

/-! ## Slots -/

/-- What came of running slots: a state, a trap, or a step that stops. -/
inductive Ran where
  | ok (s : State)
  | trap (tr : Trap)
  | stop (o : Out3)

/-- Run one slot: its decode error, or its own step, which may have trapped. -/
def runSlot (x : SlotIn) (s : State) : Ran :=
  match x.dec with
  | .error e => .trap (x.errTrap e)
  | .ok i =>
    match exec i s with
    | .next s' => match s'.cur.trap with
      | some tr => .trap tr
      | none => .ok s'
    | .fault f => .stop (.fault f)
    | .refused r => .stop (.refused r)

def Ran.bind (r : Ran) (f : State → Ran) : Ran :=
  match r with
  | .ok s => f s
  | r => r

def runSlots : List SlotIn → State → Ran
  | [], s => .ok s
  | x :: xs, s => (runSlot x s).bind (runSlots xs)

def pickSlots (xs : List SlotIn) (p : Slot → Bool) : List SlotIn := xs.filter (fun x => p x.slot)

/-- Every slot of a bundle: checked in the order A, V0, V1, M, S, G; the S slot, which may change the mode, acts last. -/
def State.runBundle (s : State) (xs : List SlotIn) : Ran :=
  let ss := pickSlots xs (· == .s)
  let gs := pickSlots xs (· == .g)
  (runSlots (pickSlots xs (fun k => k != .s && k != .g)) s).bind (fun s1 =>
    (runSlots ss s1).bind (fun s2 =>
      if gs.isEmpty then .ok s2 else (runSlots gs s1).bind (runSlots ss)))

/-! ## The end of a bundle (R182 to R185, R212, R385, R397) -/

/-- Results numbered in their order of issue, from `n` on. -/
def numberedFrom (n : Nat) : List Result → List Result
  | [] => []
  | r :: rs => { r with seq := n } :: numberedFrom (n + 1) rs

/-- Results of a bundle stand in slot order behind those of earlier bundles (R329); `n` is the first id of the bundle. -/
def Ctx.inOrder (c : Ctx) (n : Nat) : Ctx :=
  let new := c.inflight.filter (fun r => decide (n ≤ r.id))
  { c with inflight := c.inflight.filter (fun r => decide (r.id < n))
      ++ numberedFrom n ([0, 1, 2, 3, 4, 5, 6].flatMap (fun k => new.filter (fun r => r.slot == k))) }

/-- R184, from the top of the stack down: the stack that is left, top first, and the next PC. -/
def loopEnd (pc next : Nat) : List LoopE → List LoopE × Nat
  | [] => ([], next)
  | e :: es =>
    if e.fin ≠ pc then (e :: es, next)
    else if e.index + 1 < e.count then ({ e with index := e.index + 1 } :: es, e.start)
    else loopEnd pc next es

/-- The sequencer after a bundle: the next PC, the delay bundles still to issue, and the loop stack. -/
def Ctx.advance (c : Ctx) (k : Cur) : Ctx :=
  match k.jump with
  | some p => { c with pc := p }
  | none =>
    if 1 < k.dly then { c with pc := k.next, dly := k.dly - 1 }
    else if k.dly = 1 then
      let c := { c with pc := c.dtgt, dly := 0 }
      if c.uiret && !c.sys then c.afterUiret else c
    else
      match k.taken with
      | some p => { c with pc := k.next, dly := 2, dtgt := p }
      | none =>
        if k.popped || c.active then { c with pc := k.next }
        else
          let (l, p) := loopEnd k.pc k.next c.loops.reverse
          { c with pc := p, loops := l.reverse }

/-- A bundle has issued: `user` when it was a user bundle, `n` the first id of its results. -/
def State.finish (s : State) (user : Bool) (n : Nat) : State :=
  let k := s.cur
  let tc := s.ctcyc
  let inside := s.queueBarred
  let s :=
    if k.ended then s.modCC (fun c => { c.inOrder n with lastIssue := some tc })
    else
      s.modCC (fun c =>
        { ((c.inOrder n).advance k) with
          litPaid := if k.dly = 1 && c.uiret && !c.sys then ((c.inOrder n).advance k).litPaid && (c.rec0 && c.deleg) else false,
          pline := if k.dly = 1 && c.uiret && !c.sys then ((c.inOrder n).advance k).pline else none,
          lastIssue := some tc,
          stepDue := if user && bitAt c.dbg.toNat 16 && !c.done then some k.pc else none })
  let s :=
    match k.soft with
    | some v => s.modCC (fun c => { c with softDue := some (k.pc, v.toNat, inside) })
    | none => s
  { s with cur := Cur.idle }

/-- No slot of the bundle acts, and the trap is taken in its place (R323). -/
def State.trapped (s : State) (tr : Trap) : State := { s.issueTrap tr with cur := Cur.idle }

/-- The trap of a bundle's slots.  A partial tile transfers its first lines all the same (R334). -/
def State.slotTrapped (s : State) (xs : List SlotIn) (tr : Trap) : Out3 :=
  if tr.cause == 6 && tr.slot == slM && bitAt tr.info2 15 then
    match xs.find? (fun x => x.slot == .m) with
    | some x =>
      match x.dec with
      | .ok i =>
        match exec i s with
        | .next s' => .next { s' with cur := Cur.idle }
        | o => o
      | .error _ => .next (s.trapped tr)
    | none => .next (s.trapped tr)
  else .next (s.trapped tr)

/-- ILLEGAL 0x06 (R325): the issue would raise the bytes in flight above the catch area's free bytes. -/
def capacityTrap (before after : State) : Option Trap :=
  let n := after.cc.inflightBytes
  if before.cc.inflightBytes < n && before.cc.catchFree < n then some ⟨1, 6, 0, 0, n⟩ else none

/-- Issue the slots of a bundle. -/
def State.issueSlots (s : State) (xs : List SlotIn) : Out3 :=
  match s.cc.wholeTrap xs with
  | some tr => .next (s.trapped tr)
  | none =>
    match s.runBundle xs with
    | .stop o => o
    | .trap tr => s.slotTrapped xs tr
    | .ok s' =>
      match capacityTrap s s' with
      | some tr => .next (s.trapped tr)
      | none => .next (s'.finish (!s.cc.sys) s.nextId)

/-- The present slots of a bundle. -/
def slotsIn (n : Nat) (l : List (Slot × Dec)) : List SlotIn := l.map (fun x => ⟨x.1, containerOf n x.1, x.2⟩)

/-- The bundle of bits n issues. -/
def State.issueBundle (s : State) (n : Nat) : Out3 :=
  match decodeBundle n with
  | .error _ => .next (s.trapped ⟨1, 1, 0, 0, n / 2 ^ 320⟩)
  | .ok [] =>
    match exec .emptyBundle s with
    | .next s' => .next (s'.finish (!s.cc.sys) s.nextId)
    | o => o
  | .ok l => s.issueSlots (slotsIn n l)

/-! ## One context's turn (R171, R178, R179, R212, R322) -/

/-- Make a context's bundle the one that issues. -/
def State.begin (s : State) (t h : Nat) : State :=
  let c := s.ctx t h
  { s with cur := { Cur.idle with tile := t, hw := h, pc := c.pc, next := s.codeNext t c c.pc, dly := c.dly } }

/-- The breakpoint of a user bundle (R322). -/
def Ctx.atBreakpoint (c : Ctx) : Bool := !c.sys && bitAt c.dbg.toNat 15 && c.dbg.toNat % 2 ^ 15 == c.pc

/-- What stands at the context's PC issues, or spends its extra cycle. -/
def State.issueNext (s : State) (t h : Nat) : Out3 :=
  let c := s.ctx t h
  match s.fetch t c with
  | .escape => .next (s.setCtx t h { c with litPaid := true, readyAt := s.now + 1 })
  | .dict x =>
    .next ((s.begin t h).trapped (if c.atBreakpoint then ⟨10, 1, 0, 0, 0⟩ else ⟨3, if x = 0xFFFE then 2 else 1, 0, x, 0⟩))
  | .bundle n =>
    if c.atBreakpoint then .next ((s.begin t h).trapped ⟨10, 1, 0, 0, 0⟩) else (s.begin t h).issueBundle n

/-- The first bundle after UIRET or TRET: its extra cycle first, if it has one; then the return itself, and the handler again or the
bundle. -/
def State.issueBack (s : State) (t h : Nat) : Out3 :=
  let c := s.ctx t h
  let again := c.asNext.uiDue s.now
  if !again && s.fetch t c == .escape then s.issueNext t h
  else
    let s := s.comeBack t h
    if (s.ctx t h).halted then .next s
    else if again then (s.enterUi t h).issueNext t h
    else s.issueNext t h

/-- The turn of the selected context. -/
def State.issueAt (s : State) (t h : Nat) : Out3 :=
  let c := s.ctx t h
  let s := s.modTile t (fun x => { x with running := x.running.insert (s.field c.fieldNum).member h })
  if s.wholeService t c then .next (s.systemService t h)
  else if c.back then s.issueBack t h
  else s.issueNext t h

/-! ## What is due (R12, R187, R205) -/

/-- An event happens now: its own clock has reached its cycle. -/
def State.isDue (s : State) (d : Due) : Bool :=
  match d.clk with
  | none => decide (d.at_ ≤ s.now)
  | some f => s.live f && (s.field f).ticking && decide (d.at_ ≤ s.tcycOf f)

/-- The first of two due events. -/
def Due.before (a b : Due) : Bool := a.phase < b.phase || (a.phase == b.phase && decide (a.seq < b.seq))

def firstDue : List Due → Option Due
  | [] => none
  | d :: ds =>
    match firstDue ds with
    | none => some d
    | some e => if e.before d then some e else some d

/-- The next event of this cycle that precedes the outside world's inputs. -/
def State.dueFirst (s : State) : Option Due := firstDue (s.agenda.filter (fun d => s.isDue d && decide (d.phase ≤ phSets)))

/-- The next event of this cycle among those before or after issue. -/
def State.dueEvent (s : State) (early : Bool) : Option Due :=
  firstDue (s.agenda.filter (fun d => s.isDue d && decide (d.phase < 50) == early))

def dropFirst (d : Due) : List Due → List Due
  | [] => []
  | x :: xs => if x == d then xs else x :: dropFirst d xs

/-- An event happens. -/
def State.runDue (s : State) (d : Due) : Out3 :=
  exec d.ev { s with agenda := dropFirst d s.agenda, selPch := d.sel }

/-! ## The outside world (log entry 2) -/

/-- What the outside world may do, and when steps whose time or data the spec leaves to others happen. -/
def Instr.fromOutside : Instr → Bool
  | .powerOnReset => true
  | .powerLoss => true
  | .bootImageCheck => true
  | .selfTest _ => true
  | .bringupConfig _ => true
  | .droopWarning _ => true
  | .droopFailure _ => true
  | .uncorrectableError _ => true
  | .correctedError _ _ _ => true
  | .controlStoreError _ _ => true
  | .microwordStep _ ecc => ecc.isSome
  | .hbmStandardAccess _ _ _ _ _ _ => true
  | .refreshBreak => true
  | .portTrainingDone _ _ => true
  | .portRetrain _ => true
  | .timeFlitReceive _ _ _ => true
  | .dataFlitReceive _ _ _ => true
  | .noticePlaced _ _ => true
  | .noticeFreeze _ _ => true
  | .noticeResume _ _ => true
  | .noticeArrived _ _ => true
  | .noticeDone _ _ => true
  | .colBudgetWrite _ => true
  | .torHopWrite _ => true
  | .torTrain => true
  | .torTimeloRead => true
  | .sbDataloRead => true
  | .sbSnap => true
  | .bar0BadAccess _ _ => true
  | .registerWrite _ _ => true
  | .qCtlWrite _ _ => true
  | .qReset _ _ => true
  | .qKick _ _ => true
  | .evHostWrite _ _ => true
  | .stagingRead _ _ => true
  | .stagingWrite _ _ => true
  | .fqConsWrite _ => true
  | .devShutdown => true
  | .devReset => true
  | .devCommitsvn => true
  | .functionLevelReset => true
  | .imageLoaded _ _ => true
  | .copyComplete _ _ => true
  | .globalLoadComplete _ _ => true
  | .atomicArrive _ _ => true
  | .hintComplete _ => true
  | .cpyComplete _ _ => true
  | .cpyzComplete _ _ => true
  | .cloadComplete _ => true
  | _ => false

/-- The first input whose cycle has come, and the others. -/
def takeInput (now : Nat) : List Input → Option (Input × List Input)
  | [] => none
  | x :: xs =>
    if x.at_ ≤ now then some (x, xs)
    else (takeInput now xs).map (fun r => (r.1, x :: r.2))

/-- A FENCE of a writer elsewhere with B in Y: what it wrote here in the class reaches HBM4 (R315), once no session holds a channel of
it (R98). -/
def State.takeFence (s : State) (x : Inbound) : State :=
  let mine (b : Late) : Bool := b.writer == x.writer && b.cls == x.cls
  if (List.range 4).any (fun k => (s.die k).late.any (fun b => mine b && s.lineHeld k b.line)) then s.arriveLater x else s.drainDies mine

/-- A write from elsewhere reaches its home slice here: bytes that a span domain defers join its version, once R305 lets them; the
others commit; in a non-resident page they are dropped, and a page request of the writer's field is made (R294, R305, R307). -/
def State.takeStore (s : State) (x : Inbound) : State :=
  let wait (s : State) : State := s.arriveLater x
  let seq := x.seq.getD s.nextId
  if x.fence then s.takeFence x
  else
  let (l, s) := s.translate .system true x.addr
  match l with
  | .home d p _ _ bs =>
    let ln := p / 128
    let cells := x.cells.filter (fun c => decide (c.1 < 128))
    (match x.ver with
    | some (dom, ph) =>
      if s.mustWait d ln dom then wait s
      else s.modDie d (fun y => { y with
        pend := y.pend ++ cells.map (fun c => ⟨ln, dom, .ofNat 16 ph, c.1, c.2, x.writer, seq, bs⟩) })
    | none =>
      if s.dramBusy d ln (bs && x.cls != 0) then wait s else s.lineWrite d ln bs x.cls (cells.map (fun c => (c.1, c.2, x.writer, seq))))
  | .absent => (s.pageRequest (vDie x.addr) ⟨x.writer % 2 ^ 26 / 1024, x.addr / 65536 * 65536, true, false, false, 1⟩).2
  | .busy => wait s
  | _ => s

/-- An input happens: the host's bytes of queue memory, temperatures, other packages' writes, then its event. -/
def State.runInput (s : State) (x : Input) (rest : List Input) : Out3 :=
  let s := { s with
    inputs := rest, hport := { s.hport with qmem := if s.pkg.powered then Mem.setCells s.hport.qmem x.ring else s.hport.qmem },
    pkg := s.pkg.withSensors x.heat }
  let s := x.stores.foldl State.takeStore s
  match x.ev with
  | none => .next s
  | some i => if Instr.fromOutside i then exec i s else .next s

/-! ## A cycle -/

/-- The places, 2 × tile + member, at which a field stands, from `scan` on. -/
def State.issuePlaces (s : State) : List Nat :=
  distinct (s.ctxs.filterMap (fun e => e.2.field.map (fun f => 2 * (e.1 / 4) + (s.field f).member))) |>.filter (fun p => decide (s.scan ≤ p))

/-- What a place has to do in this cycle. -/
inductive Turn where
  | trap (t h : Nat)
  | interrupt (t h : Nat)
  | issue (t h : Nat)
deriving DecidableEq, Repr

def State.turnAt (s : State) (p : Nat) : Option Turn :=
  let t := p / 2
  let hs := s.siblings t (p % 2)
  match hs.find? (s.trapDue t) with
  | some h => some (.trap t h)
  | none =>
    match hs.find? (s.uiReady t) with
    | some h => some (.interrupt t h)
    | none => (s.selected t (p % 2)).map (.issue t)

/-- The first place with something to do. -/
def State.nextTurn (s : State) : List Nat → Option (Nat × Turn)
  | [] => none
  | p :: ps => match s.turnAt p with
    | some x => some (p, x)
    | none => State.nextTurn s ps

def State.runTurn (s : State) (p : Nat) (x : Turn) : Out3 :=
  match x with
  | .trap t h => exec (.reportedTrapTake (.ofNat 8 t) (.ofNat 2 h)) { s with scan := p }
  | .interrupt t h => exec (.uiEntry (.ofNat 8 t) (.ofNat 2 h)) { s with scan := p }
  | .issue t h => State.issueAt { s with scan := p + 1 } t h

/-- The end of a cycle: arrivals, what the queues have ready, and what recorded images take over. -/
def State.endCycle (s : State) : State :=
  let s := s.arrivalScan.hostScan.imageScan
  { s with now := s.now + 1, scan := 0, hport := { s.hport with sets := [] } }

end Sys2Proof.Machine
end

