-- ==== Sys2Proof/Machine/Step.lean ====
section
/-! DEFINITION. One step of the package, and the way an instruction comes to be the next one to run. -/

namespace Sys2Proof.Machine

open Sys2Proof

/-- One step.  Within a device cycle: what is due before the outside world's inputs, the inputs, what is due before issue, the
contexts' turns in rising order of tile, what is due after issue, and the end of the cycle. -/
def step (s : State) : Host.Outcome State Fault Refusal :=
  match s.dueFirst with
  | some d => s.runDue d
  | none =>
    match takeInput s.now s.inputs with
    | some (x, rest) => s.runInput x rest
    | none =>
      match s.dueEvent true with
      | some d => s.runDue d
      | none =>
        match s.nextTurn s.issuePlaces with
        | some (p, x) => s.runTurn p x
        | none =>
          match s.dueEvent false with
          | some d => s.runDue d
          | none => .next s.endCycle

/-- A field alone on tile 0 that runs from this cycle on. -/
def probeField (now : Nat) : Field :=
  { Field.blank with state := .running, ticking := true, tcZero := now, tcPrev := now, codeLen := 25 }

/-- A context at an escape halfword whose extra cycle is spent. -/
def probeCtx : Ctx := { Ctx.idle with field := some 0, litPaid := true }

/-- A code segment that holds one literal: the escape and the 24 halfwords of `w`. -/
def probeCode (w : Nat) : Table Half :=
  ((0, (0xFFFF : Half)) :: (List.range 24).map (fun j => (j + 1, BitVec.ofNat 16 (w / 2 ^ (16 * j)))))
    |>.filter (fun e => e.2 != 0xFFFE)

/-- `s` with the instruction of bits `w` as the next one to run: field 0 stands alone on tile 0, its one context at PC 0 of a
code segment that holds the instruction's bundle as a literal, and nothing else is due before it in this cycle. -/
def State.withFetchWord (s : State) (_nbits w : Nat) : State :=
  { s with
    fields := s.fields.insert 0 (probeField s.now),
    ctxs := (((s.ctxs.insert 0 probeCtx).remove 1).remove 2).remove 3,
    tiles := s.tiles.insert 0 { s.tile 0 with code := probeCode w, running := [] },
    inputs := s.inputs.filter (fun x => decide (s.now < x.at_)),
    agenda := s.agenda.filter (fun d => !(d.clk.isNone && decide (d.at_ ≤ s.now)) && d.clk != some 0),
    groups := s.groups.filter (fun g => g.1 != 0 && g.2 != 0),
    cur := Cur.idle,
    scan := 0 }

end Sys2Proof.Machine
end

