-- ==== Sys2Proof/Safety.lean ====
section
/-! DEFINITION. What counts as a safe run, in the terms the claims use: a step goes on, and two registers of the package stay within
the limits that the spec gives their values. -/

namespace Sys2Proof.Machine

open Sys2Proof

/-- The step goes on to a next state. -/
def Out3.goesOn (o : Out3) : Prop := ∃ t, o = .next t

/-- COL_BUDGET is at most 2,400 (R32), and TOR_HOP is a multiple of 4, at most 4,092 (R52). -/
abbrev State.Bounded (s : State) : Prop := s.col.budget ≤ 2400 ∧ s.torus.hop % 4 = 0 ∧ s.torus.hop ≤ 4092

/-- What no step takes back: device time runs on by at most one cycle, DEV_COMMITSVN's number never falls (R112), and no
committed Scorebook counter ever decreases (R39). -/
def State.Onward (s t : State) : Prop :=
  s.now ≤ t.now ∧ t.now ≤ s.now + 1 ∧ s.hport.minSvn ≤ t.hport.minSvn ∧
    ∀ i, (s.sb.counters.rd 0 i).toNat ≤ (t.sb.counters.rd 0 i).toNat

end Sys2Proof.Machine
end

