-- ==== Sys2Proof/Certificates/Slice0/Obligations.lean ====
section
/-! DEFINITION. The statements.  Each says what a rule, or several rules, of spec/ have an instruction or the package do; a helper
definition stands before the statement that first uses it. -/

open Sys2Proof Sys2Proof.Machine

/-! ### Data: memory, hard-wired registers, results in flight -/

/-- R3 and the memory's own laws: reading after a write gives the byte written, and every other byte is as before; the same for a
run of bytes, numbered from its first address; every write keeps the canonical form, and two memories in it that read alike are
the same data. -/
def Obligations.MemoryReadsBackAndStaysCanonical : Prop :=
  (∀ (m : Mem) (a x : Nat) (b : Byte), (m.setByte a b).byte x = if x = a then b else m.byte x) ∧
  (∀ (m : Mem) (a x : Nat) (bs : List Byte),
    (m.setBytes a bs).byte x = if a ≤ x ∧ x < a + bs.length then bs.getD (x - a) 0 else m.byte x) ∧
  (∀ (m : Mem) (a n v : Nat), v < 256 ^ n → (m.setNum a n v).num a n = v) ∧
  (∀ (m : Mem) (a : Nat) (b : Byte), m.wf = true → (m.setByte a b).wf = true) ∧
  (∀ (m : Mem) (a : Nat) (bs : List Byte), m.wf = true → (m.setBytes a bs).wf = true) ∧
  (∀ (m : Mem) (cs : List Host.Cell), m.wf = true → (m.setCells cs).wf = true) ∧
  (∀ m n : Mem, m.wf = true → n.wf = true → (∀ a, m.byte a = n.byte a) → m = n)

/-- R203: %s0 reads 0 and %p0 reads 1 in every context, and a result that names one of them changes the context in nothing;
a result that names another register of the set the name is bound to is what that register reads. -/
def Obligations.HardWiredRegisters : Prop :=
  (∀ c : Ctx, c.sreg 0 = 0 ∧ c.preg 0 = true) ∧
  (∀ (c : Ctx) (b : RegSetId) (v : W64), c.putS b 0 v = c) ∧
  (∀ (c : Ctx) (b : RegSetId) (v : Bool), c.putP b 0 v = c) ∧
  (∀ (c : Ctx) (n m : Nat) (v : W64), n ≠ 0 → m ≠ 0 →
    (c.putS (c.sSet n) n v).sreg m = if m = n then v else c.sreg m) ∧
  (∀ (c : Ctx) (n m : Nat) (v : Bool), n ≠ 0 → m ≠ 0 →
    (c.putP (c.pSet n) n v).preg m = if m = n then v else c.preg m)

/-- R186, R391: an issued result waits in flight: the issuing context has one more, due `lat` cycles on, its landing is on the agenda,
and nothing else changes.  When it lands, as RESULT_LANDING or as the answer of a PASS, the register it names reads the result's
value, its flags are ORed into aflags, it is in flight no more, and no other context, tile or part of the package changes. -/
def Obligations.AResultWaitsAndLands : Prop :=
  (∀ (s : State) (lat phase slot : Nat) (fl : BitVec 7) (d : Dest),
     let t := s.result lat phase slot fl d
     t = { s with ctxs := t.ctxs, agenda := t.agenda, nextId := s.nextId + 1 } ∧
     t.cc = { s.cc with inflight := s.cc.inflight ++ [⟨s.nextId, s.now + lat, s.nextId, slot, fl, d⟩] } ∧
     t.agenda = ⟨none, s.now + lat, phase, s.nextId,
       .resultLanding (.ofNat 8 s.cur.tile) (.ofNat 2 s.cur.hw) s.nextId, 0⟩ :: s.agenda ∧
     ∀ x h, 4 * x + h ≠ 4 * s.cur.tile + s.cur.hw → t.ctx x h = s.ctx x h) ∧
  (∀ (s : State) (x : BitVec 8) (h : BitVec 2) (r : Result),
     (s.ctx x.toNat h.toNat).inflight.find? (fun y => y.id == r.id) = some r →
     ∃ t, exec (.resultLanding x h r.id) s = .next t ∧ exec (.passAnswer x h r.id) s = .next t ∧
       t = { s with ctxs := t.ctxs, tiles := t.tiles } ∧
       (∀ y k, (y, k) ≠ (x.toNat, h.toNat) → k < 4 → t.ctx y k = s.ctx y k) ∧
       (∀ y, y ≠ x.toNat → t.tile y = s.tile y) ∧
       let landed (c : Ctx) : Prop := t.tile x.toNat = s.tile x.toNat ∧ t.ctx x.toNat h.toNat =
         { c with inflight := (s.ctx x.toNat h.toNat).inflight.filter (fun y => y.id != r.id),
                  aflags := (s.ctx x.toNat h.toNat).aflags ||| r.flags.setWidth 32 }
       (∀ b n v, r.dest = .sreg b n v → landed ((s.ctx x.toNat h.toNat).putS b n v) ∧
         (n ≠ 0 → ((t.ctx x.toNat h.toNat).file b).s.rd 0 n = v)) ∧
       (∀ b n v, r.dest = .preg b n v → landed ((s.ctx x.toNat h.toNat).putP b n v) ∧
         (n ≠ 0 → ((t.ctx x.toNat h.toNat).file b).p.rd false n = v)) ∧
       (∀ b n v, r.dest = .areg b n v → landed ((s.ctx x.toNat h.toNat).putA b n v) ∧
         ((t.ctx x.toNat h.toNat).file b).a.rd 0 n = v) ∧
       (∀ b n v, r.dest = .acfg b n v → landed ((s.ctx x.toNat h.toNat).putACfg b n v) ∧
         ((t.ctx x.toNat h.toNat).file b).acfg.rd ACfg.linear n = v) ∧
       (∀ b n v, r.dest = .vreg b n v → landed ((s.ctx x.toNat h.toNat).putV b n v) ∧
         ((t.ctx x.toNat h.toNat).file b).v.rd 0 n = v))

/-- R189, R197, R270: a store to the scratchpad that lands writes its own bytes and no other; with R200, a tile that lands in
register space changes no byte outside its cells; no memory of a die changes by either. -/
def Obligations.AStoreLandsInItsBytesAlone : Prop :=
  (∀ (s : State) (x : BitVec 8) (h : BitVec 2) (r : Result) (a : Nat) (bs : List Byte),
    (s.ctx x.toNat h.toNat).inflight.find? (fun y => y.id == r.id) = some r → r.dest = .scratch (numbered a bs) →
    ∃ t, exec (.resultLanding x h r.id) s = .next t ∧ t.dies = s.dies ∧
      ∀ k, (t.tile x.toNat).scratch.byte k =
        if a ≤ k ∧ k < a + bs.length then bs.getD (k - a) 0 else (s.tile x.toNat).scratch.byte k) ∧
  (∀ (s : State) (x : BitVec 8) (h : BitVec 2) (r : Result) (v : W64) (sysw raw : Bool) (ws : List MaskedByte),
    (s.ctx x.toNat h.toNat).inflight.find? (fun y => y.id == r.id) = some r → r.dest = .tile v sysw raw ws →
    ∃ t, exec (.resultLanding x h r.id) s = .next t ∧ t.dies = s.dies ∧
      ∀ k, k < 0x20000 → (∀ w ∈ ws, w.addr ≠ k) →
        regByte (t.ctx x.toNat h.toNat) (t.tile x.toNat) sysw k =
          regByte (s.ctx x.toNat h.toNat) (s.tile x.toNat) sysw k)

/-! ### The S slot: arithmetic, constants, compares -/

/-- R375, R350: every register form of the arithmetic instructions completes, and its result waits for its latency. -/
def Obligations.ScalarArithmeticOnRegisters : Prop :=
  ∀ (g : Guard) (d a b : BitVec 5) (s : State), s.cc.guard g = true →
    let x := s.cc.sreg a.toNat
    let y := s.cc.sreg b.toNat
    let n := y.toNat % 64
    let writes (i : Instr) (lat : Nat) (v : W64) : Prop := exec i s = .next (s.scalarResult lat slS d v)
    writes (.addReg g d a b) 1 (x + y) ∧ writes (.subReg g d a b) 1 (x - y) ∧ writes (.mulReg g d a b) 3 (x * y) ∧
    (∃ v, v.toInt = x.toInt * y.toInt / 2 ^ 64 ∧ writes (.mulhReg g d a b) 3 v) ∧
    writes (.andReg g d a b) 1 (x &&& y) ∧ writes (.orReg g d a b) 1 (x ||| y) ∧ writes (.xorReg g d a b) 1 (x ^^^ y) ∧
    (∃ v, v.toNat = x.toNat * 2 ^ n % 2 ^ 64 ∧ writes (.shlReg g d a b) 1 v) ∧
    (∃ v, v.toNat = x.toNat / 2 ^ n ∧ writes (.shrReg g d a b) 1 v) ∧
    (∃ v, v.toInt = x.toInt / 2 ^ n ∧ writes (.sraReg g d a b) 1 v) ∧
    (∃ v, v.toInt = min x.toInt y.toInt ∧ writes (.minReg g d a b) 1 v) ∧
    (∃ v, v.toInt = max x.toInt y.toInt ∧ writes (.maxReg g d a b) 1 v)

/-- R375, R350: the same for the immediate forms, whose b is IMM sign-extended from 42 bits; a shift by an imm outside 0..63
raises ILLEGAL 0x05. -/
def Obligations.ScalarArithmeticOnImmediates : Prop :=
  ∀ (g : Guard) (d a : BitVec 5) (imm : BitVec 42) (s : State),
    let x := s.cc.sreg a.toNat
    let y := imm.signExtend 64
    let n := imm.toNat
    let writes (i : Instr) (lat : Nat) (v : W64) : Prop := exec i s = .next (s.scalarResult lat slS d v)
    (s.cc.guard g = true →
      y.toInt = imm.toInt ∧
      writes (.addImm g d a imm) 1 (x + y) ∧ writes (.subImm g d a imm) 1 (x - y) ∧ writes (.mulImm g d a imm) 3 (x * y) ∧
      (∃ v, v.toInt = x.toInt * y.toInt / 2 ^ 64 ∧ writes (.mulhImm g d a imm) 3 v) ∧
      writes (.andImm g d a imm) 1 (x &&& y) ∧ writes (.orImm g d a imm) 1 (x ||| y) ∧ writes (.xorImm g d a imm) 1 (x ^^^ y) ∧
      (∃ v, v.toInt = min x.toInt y.toInt ∧ writes (.minImm g d a imm) 1 v) ∧
      (∃ v, v.toInt = max x.toInt y.toInt ∧ writes (.maxImm g d a imm) 1 v)) ∧
    (s.cc.guard g = true → n ≤ 63 →
      (∃ v, v.toNat = x.toNat * 2 ^ n % 2 ^ 64 ∧ writes (.shlImm g d a imm) 1 v) ∧
      (∃ v, v.toNat = x.toNat / 2 ^ n ∧ writes (.shrImm g d a imm) 1 v) ∧
      (∃ v, v.toInt = x.toInt / 2 ^ n ∧ writes (.sraImm g d a imm) 1 v)) ∧
    (63 < n →
      exec (.shlImm g d a imm) s = .next (s.issueTrap (illegal5 slS)) ∧
      exec (.shrImm g d a imm) s = .next (s.issueTrap (illegal5 slS)) ∧
      exec (.sraImm g d a imm) s = .next (s.issueTrap (illegal5 slS)))

/-- R376: BITC writes f(sA) at latency 1, for each of its eleven functions; a reserved FN raises ILLEGAL 0x05. -/
def Obligations.BitCountsAndExtensions : Prop :=
  ∀ (g : Guard) (d a : BitVec 5) (s : State),
    let x := s.cc.sreg a.toNat
    let writes (fn : BitVec 6) (v : W64) : Prop := exec (.bitc g d a fn) s = .next (s.scalarResult 1 slS d v)
    (s.cc.guard g = true →
      (∃ v, v.toNat = ((List.range 64).filter (fun k => x.getLsbD k)).length ∧ writes 0 v) ∧
      (∃ v, (∀ k, k < 64 → 64 ≤ k + v.toNat → x.getLsbD k = false) ∧
        ((x = 0 ∧ v.toNat = 64) ∨ (v.toNat < 64 ∧ x.getLsbD (63 - v.toNat) = true)) ∧ writes 1 v) ∧
      (∃ v, (∀ k, k < v.toNat → x.getLsbD k = false) ∧
        ((x = 0 ∧ v.toNat = 64) ∨ (v.toNat < 64 ∧ x.getLsbD v.toNat = true)) ∧ writes 2 v) ∧
      (∃ v, (∀ k, k < 64 → v.getLsbD (63 - k) = x.getLsbD k) ∧ writes 3 v) ∧
      (∃ v, (∀ k, k < 8 → v.toNat / 256 ^ (7 - k) % 256 = x.toNat / 256 ^ k % 256) ∧ writes 4 v) ∧
      (∃ v, v.toInt = (x.setWidth 8).toInt ∧ writes 5 v) ∧ (∃ v, v.toInt = (x.setWidth 16).toInt ∧ writes 6 v) ∧
      (∃ v, v.toInt = (x.setWidth 32).toInt ∧ writes 7 v) ∧ (∃ v, v.toNat = x.toNat % 2 ^ 8 ∧ writes 8 v) ∧
      (∃ v, v.toNat = x.toNat % 2 ^ 16 ∧ writes 9 v) ∧ (∃ v, v.toNat = x.toNat % 2 ^ 32 ∧ writes 10 v)) ∧
    ∀ fn : BitVec 6, 0x0B ≤ fn.toNat → exec (.bitc g d a fn) s = .next (s.issueTrap (illegal5 slS))

/-- R377 to R380: LI, the twelve conditions of CMP in both forms, PLOG and SEL, each at latency 1; a reserved CC raises ILLEGAL
0x05. -/
def Obligations.ConstantsComparesAndSelection : Prop :=
  ∀ (g : Guard) (s : State),
    (∀ (d : BitVec 5) (imm : BitVec 48), s.cc.guard g = true →
      ∃ v : W64, v.toInt = imm.toInt ∧ exec (.li g d imm) s = .next (s.scalarResult 1 slS d v)) ∧
    (∀ (pd : BitVec 3) (cc : BitVec 4) (a : BitVec 5) (y : W64) (i : Instr),
      ((∃ b : BitVec 5, i = .cmpReg g pd cc a b ∧ y = s.cc.sreg b.toNat) ∨
        (∃ imm : BitVec 39, i = .cmpImm g pd cc a imm ∧ y = imm.signExtend 64)) →
      (s.cc.guard g = true → cc.toNat ≤ 0xB → ∃ v : Bool, exec i s = .next (s.predResult pd v) ∧
        let x := s.cc.sreg a.toNat
        (cc = 0 → (v = true ↔ x = y)) ∧ (cc = 1 → (v = true ↔ x ≠ y)) ∧
        (cc = 2 → (v = true ↔ x.toInt < y.toInt)) ∧ (cc = 3 → (v = true ↔ x.toInt ≥ y.toInt)) ∧
        (cc = 4 → (v = true ↔ x.toInt ≤ y.toInt)) ∧ (cc = 5 → (v = true ↔ x.toInt > y.toInt)) ∧
        (cc = 6 → (v = true ↔ x.toNat < y.toNat)) ∧ (cc = 7 → (v = true ↔ x.toNat ≥ y.toNat)) ∧
        (cc = 8 → (v = true ↔ x.toNat ≤ y.toNat)) ∧ (cc = 9 → (v = true ↔ x.toNat > y.toNat)) ∧
        (cc = 10 → (v = true ↔ x &&& y ≠ 0)) ∧ (cc = 11 → (v = true ↔ x &&& y = 0))) ∧
      (0xC ≤ cc.toNat → exec i s = .next (s.issueTrap (illegal5 slS)))) ∧
    (∀ (pd : BitVec 3) (tt : BitVec 4) (pa pb : Guard), s.cc.guard g = true →
      exec (.plog g pd tt pa pb) s = .next (s.predResult pd
        (tt.getLsbD (2 * (if s.cc.guard pb then 1 else 0) + (if s.cc.guard pa then 1 else 0))))) ∧
    (∀ (d : BitVec 5) (ps : Guard) (a b : BitVec 5), s.cc.guard g = true →
      exec (.sel g d ps a b) s = .next (s.scalarResult 1 slS d
        (if s.cc.guard ps then s.cc.sreg a.toNat else s.cc.sreg b.toNat)))

/-! ### The sequencer: branches, loops, waits -/

/-- R381 to R383: where a control transfer may stand, BR takes its branch exactly when its condition holds of sA as signed, JMP,
CALL and RET always do; a taken one leaves its target, modulo the segment, for after the delay bundles, and CALL's link waits
for %s31; in a delay bundle or a body end each raises ILLEGAL 0x04. -/
def Obligations.BranchesAndCalls : Prop :=
  ∀ (g : Guard) (cc : BitVec 4) (a : BitVec 5) (target : BitVec 15) (s : State), s.cc.guard g = true →
    let x := s.cc.sreg a.toNat
    let takes (i : Instr) (u : State) (tgt : Nat) : Prop :=
      exec i s = .next { u with cur := { s.cur with taken := some (tgt % s.codeSize s.cc) } }
    let linked := s.scalarResult 1 slS 31 (.ofNat 64 s.linkPc)
    let stands := s.inDelay = false ∧ s.bodyEnd = false
    (stands →
      (cc.toNat ≤ 5 →
        let holds := (cc = 0 ∧ x.toInt = 0) ∨ (cc = 1 ∧ x.toInt ≠ 0) ∨ (cc = 2 ∧ x.toInt < 0) ∨ (cc = 3 ∧ x.toInt ≥ 0) ∨
          (cc = 4 ∧ x.toInt ≤ 0) ∨ (cc = 5 ∧ x.toInt > 0)
        (holds → takes (.br g cc a target) s target.toNat) ∧ (¬holds → exec (.br g cc a target) s = .next s)) ∧
      takes (.jmpLabel g target) s target.toNat ∧ takes (.jmpReg g a) s (x.toNat % 2 ^ 15) ∧
      takes (.callLabel g target) linked target.toNat ∧ takes (.callReg g a) linked (x.toNat % 2 ^ 15) ∧
      takes (.ret g a) s (x.toNat % 2 ^ 15)) ∧
    (¬stands → cc.toNat ≤ 5 → ∀ i ∈ [Instr.br g cc a target, .jmpLabel g target, .jmpReg g a, .callLabel g target, .callReg g a,
      .ret g a], exec i s = .next (s.issueTrap ⟨1, 4, 5, 0, 0⟩))

/-- R384: LOOP in both forms, where it may stand: a count of 0 goes to the PC past the bundle at END, any other pushes an entry
whose body starts past the LOOP; six entries, a delay bundle, a body end or a running handler raise ILLEGAL 0x04, and END at
the LOOP itself ILLEGAL 0x05. -/
def Obligations.LoopsPush : Prop :=
  ∀ (g : Guard) (a : BitVec 5) (n : Half) (endPc : BitVec 15) (s : State) (i : Instr) (count : Nat),
    (i = .loopReg g a endPc ∧ count = (s.cc.sreg a.toNat).toNat % 2 ^ 32) ∨ (i = .loopImm g n endPc ∧ count = n.toNat) →
    let e := endPc.toNat % s.codeSize s.cc
    (e = s.cur.pc → exec i s = .next (s.issueTrap ⟨1, 5, 5, 0, 0⟩)) ∧
    (e ≠ s.cur.pc → s.cc.guard g = true →
      let barred := 6 ≤ s.cc.loops.length ∨ s.inDelay = true ∨ s.bodyEnd = true ∨ s.cc.active = true
      (barred → exec i s = .next (s.issueTrap ⟨1, 4, 5, 0, 0⟩)) ∧
      (¬barred →
        (count = 0 → exec i s = .next { s with cur := { s.cur with jump := some (s.codeNext s.cur.tile s.cc e) } }) ∧
        (count ≠ 0 → exec i s = .next (s.modCC (fun c => { c with loops := c.loops ++ [⟨s.cur.next, e, count, 0⟩] })))))

/-- R385: LBRK. -/
def Obligations.LoopBreakPops : Prop :=
  ∀ (g : Guard) (k : BitVec 16) (s : State),
    ((k.toNat = 0 ∨ 6 < k.toNat) → exec (.lbrk g k) s = .next (s.issueTrap ⟨1, 5, 5, 0, 0⟩)) ∧
    (1 ≤ k.toNat → k.toNat ≤ 6 → s.cc.guard g = true →
      let barred := s.cc.loops.length < k.toNat ∨ s.inDelay = true ∨ s.cc.active = true
      (barred → exec (.lbrk g k) s = .next (s.issueTrap ⟨1, 4, 5, 0, 0⟩)) ∧
      (¬barred → ∃ t, exec (.lbrk g k) s = .next t ∧
        t = { s.modCC (fun c => { c with loops := c.loops.take (c.loops.length - k.toNat) }) with cur := { s.cur with popped := true } } ∧
        t.cc.pc = s.cc.pc ∧
        ∀ c : Ctx, s.cur.jump = none → s.cur.dly = 0 → s.cur.taken = none → c.advance t.cur = { c with pc := s.cur.next }))

/-- R182, R184, R185: what the end of a bundle makes of the sequencer. -/
def Obligations.SequencerAfterABundle : Prop :=
  ∀ (c : Ctx) (k : Cur), k.jump = none →
    (k.dly = 2 → c.advance k = { c with pc := k.next, dly := 1 }) ∧
    (k.dly = 1 → c.uiret = false → c.advance k = { c with pc := c.dtgt, dly := 0 }) ∧
    (k.dly = 0 → ∀ tgt, k.taken = some tgt → c.advance k = { c with pc := k.next, dly := 2, dtgt := tgt }) ∧
    (k.dly = 0 → k.taken = none → k.popped = false → c.active = false →
      (c.loops = [] → c.advance k = { c with pc := k.next }) ∧
      (∀ below top, c.loops = below ++ [top] →
        (top.fin ≠ k.pc → c.advance k = { c with pc := k.next }) ∧
        (top.fin = k.pc → top.index + 1 < top.count →
          c.advance k = { c with pc := top.start, loops := below ++ [{ top with index := top.index + 1 }] }) ∧
        (top.fin = k.pc → top.count ≤ top.index + 1 → c.advance k = { c with loops := below }.advance k))) ∧
    (k.dly = 0 → k.taken = none → c.active = true → c.advance k = { c with pc := k.next })

/-- R386, R387: a WAIT whose guard is false or whose condition holds issues and changes nothing; while it does not hold, a
context at its bundle is not ready, so that no slot of the bundle acts. -/
def Obligations.WaitsIssueWhenMet : Prop :=
  ∀ (g : Guard) (e : BitVec 4) (imm : W32) (r : BitVec 5) (s : State),
    (s.cc.guard g = false ∨ (s.cc.ereg e.toNat).toInt ≤ imm.toInt → exec (.waitImm g e imm) s = .next s) ∧
    (s.cc.guard g = false ∨ (s.cc.ereg e.toNat).toInt ≤ ((s.cc.sreg r.toNat).setWidth 32).toInt →
      exec (.waitReg g e r) s = .next s) ∧
    (s.cc.guard g = false ∨ (s.cc.sreg r.toNat).toNat ≤ s.ctcyc → exec (.waitTcyc g r) s = .next s) ∧
    ∀ (t h n : Nat) (sl : Slot) (l : List (Slot × Dec)) (i : Instr),
      let c := s.ctx t h
      s.wholeService t c = false → c.back = false → s.fetch t c = .bundle n → decodeBundle n = .ok l → (sl, .ok i) ∈ l →
      (i = .waitImm g e imm ∧ imm.toInt < (c.ereg e.toNat).toInt ∨
        i = .waitReg g e r ∧ ((c.sreg r.toNat).setWidth 32).toInt < (c.ereg e.toNat).toInt ∨
        i = .waitTcyc g r ∧ s.tcycOf c.fieldNum < (c.sreg r.toNat).toNat) →
      c.guard g = true → s.ready t h = false

/-- R388, R397, R399 to R401: PHASE, TRAP, UIRET, YIELD in both forms and DONE leave in the context, or in the bundle that
issues, what their rules say, and change nothing else; at the end of its bundle a TRAP leaves its SOFT trap due. -/
def Obligations.TaskControl : Prop :=
  ∀ (g : Guard) (s : State), s.cc.guard g = true →
    (∀ (n : BitVec 3) (d : DomKey), s.curDomain n.toNat = some d →
      exec (.phase g n) s = .next (s.modCC (fun c => { c with phase := some ⟨d, false, c.sys⟩ }))) ∧
    (∀ n : BitVec 3, s.curDomain n.toNat = none → exec (.phase g n) s = .next (s.issueTrap ⟨1, 5, 5, 0, 0⟩)) ∧
    exec (.done g) s = .next (s.modCC (fun c => { c with done := true })) ∧
    (s.inDelay = false → s.bodyEnd = false →
      (∀ k : Half, let u : State := { s with cur := { s.cur with soft := some k } }
        exec (.trap g k) s = .next u ∧
        ∀ user n, ((u.finish user n).ctx s.cur.tile s.cur.hw).softDue = some (s.cur.pc, k.toNat, s.queueBarred)) ∧
      exec (.yield g) s = .next (s.modCC (fun c => { c with yieldAt := some (s.now + 1) })) ∧
      (s.partnerParked = none →
        exec (.yieldField g) s = .next (s.modCC (fun c => { c with yieldAt := some (s.now + 1) }))) ∧
      (∀ p, s.partnerParked = some p →
        exec (.yieldField g) s =
          .next (((s.modField p (fun x => { x with resumeReq := some s.global })).wake p).requestFreeze s.cf false)) ∧
      (s.cc.active = true → s.cc.sys = false →
        exec (.uiret g) s = .next { s.modCC (fun c => { c with uiret := true }) with
          cur := { s.cur with taken := some (s.cc.uipc.toNat % 2 ^ 15 % s.codeSize s.cc) } })) ∧
    ((s.cc.active = false ∨ s.cc.sys = true ∨ s.inDelay = true ∨ s.bodyEnd = true) →
      exec (.uiret g) s = .next (s.issueTrap ⟨1, 4, 5, 0, 0⟩)) ∧
    (s.inDelay = true ∨ s.bodyEnd = true →
      (∀ k : Half, exec (.trap g k) s = .next (s.issueTrap ⟨1, 4, 5, 0, 0⟩)) ∧
      exec (.yield g) s = .next (s.issueTrap ⟨1, 4, 5, 0, 0⟩) ∧ exec (.yieldField g) s = .next (s.issueTrap ⟨1, 4, 5, 0, 0⟩))

/-- R27, R28, R389 to R391: PASS in both forms is decided at its issue: granted whole, as a grant in force from issue + 40, when
every window has room and the field holds fewer than four live grants of the class; denied otherwise, with the denial counted
and COL_STAT.DENY set.  Either way the answer is in flight for %sD, to land 40 cycles on: the request's first window in [63:32], and
below it GRANT, or NOROOM where a window lacks room, or else NOSLOT. -/
def Obligations.PowerRequests : Prop :=
  ∀ (g : Guard) (d r : BitVec 5) (req : W32) (s : State) (i : Instr) (start : Int),
    ((i = .pass g d req ∧ start = s.ctcyc) ∨
      (i = .passCycleReg g d req r ∧ start = startCycle s.ctcyc ((s.cc.sreg r.toNat).toNat % 2 ^ 20))) →
    s.cc.guard g = true → passReqOk req = true →
    let cls := req.toNat % 4
    let units := req.toNat / 4 % 4096
    let count := req.toNat / 2 ^ 14 % 64 + 1
    let first := windowOf (s.globalOf start)
    let room := ∀ w, first ≤ w → w < first + count → s.col.standingTotal + s.col.granted w + units ≤ s.col.force
    let slots := (s.col.grants.filter (fun x =>
      x.field == s.cf && x.cls == cls && decide (windowOf s.global ≤ x.last))).length < 4
    ∃ (t : State) (v : W64), exec i s = .next t ∧ v.toNat / 2 ^ 32 = first % 2 ^ 32 ∧
      (room ∧ slots → v.toNat % 2 ^ 32 = 1) ∧ (¬room → v.toNat % 2 ^ 32 = 2) ∧ (room ∧ ¬slots → v.toNat % 2 ^ 32 = 4) ∧
      t.cc = { s.cc with inflight := s.cc.inflight ++
        [⟨s.nextId, s.now + 40, s.nextId, slS, 0, .sreg (s.cc.sSet d.toNat) d.toNat v⟩] } ∧
      t.agenda.head? = some ⟨s.eclk, s.enow + 40, phLand, s.nextId,
        .passAnswer (.ofNat 8 s.cur.tile) (.ofNat 2 s.cur.hw) s.nextId, 0⟩ ∧
      t.tiles = s.tiles ∧ t.dies = s.dies ∧ t.fields = s.fields ∧
      (room ∧ slots → t.col = { s.col with grants := s.col.grants ++ [⟨cls, s.cf, units, first, first + count - 1, [], s.now + 40⟩] } ∧
        t.sb = s.sb) ∧
      (¬(room ∧ slots) → t.col = { s.col with deny := true, denials := s.col.denials + 1 } ∧ t.sb = s.sb.bump 0x060 1)

/-! ### View, special and address registers -/

/-- R198, R392: each form of VIEW writes its view register at latency 1, with BASE[6:0] and bits [63:48] stored as zero; the base
and generation forms keep every other field. -/
def Obligations.ViewRegisters : Prop :=
  ∀ (g : Guard) (n m : BitVec 6) (r : BitVec 5) (imm : W32) (gen : Byte) (s : State), s.cc.guard g = true →
    let old := s.cc.vreg n.toNat
    let x := s.cc.sreg r.toNat
    let writes (i : Instr) (v : W64) : Prop := exec i s = .next (s.result 1 phLand slS 0 (.vreg s.cc.set n.toNat v))
    let kept (v w : W64) : Prop := vType v = vType w ∧ vRows v = vRows w ∧ vCols v = vCols w ∧ vCb v = vCb w ∧
      vGchk v = vGchk w ∧ vXw v = vXw w
    let stored (v : W64) : Prop := v.toNat < 2 ^ 48 ∧ vBase v % 128 = 0
    (∃ v, writes (.view g n r) v ∧ stored v ∧ kept v x ∧ vGen v = vGen x ∧ vBase v = vBase x / 128 * 128) ∧
    (∃ v, writes (.viewCopy g n m) v ∧ stored v ∧ kept v (s.cc.vreg m.toNat) ∧ vGen v = vGen (s.cc.vreg m.toNat) ∧
      vBase v = vBase (s.cc.vreg m.toNat) / 128 * 128) ∧
    (∃ v, writes (.viewBase g n r imm) v ∧ stored v ∧ kept v old ∧ vGen v = vGen old ∧
      vBase v = (x + imm.signExtend 64).toNat % 2 ^ 18 / 128 * 128) ∧
    (∃ v, writes (.viewGen g n gen) v ∧ stored v ∧ kept v old ∧ vGen v = gen.toNat ∧ vBase v = vBase old / 128 * 128)

/-- R357, R393, R395: GETS and SETS of a listed selector that the mode may name: GETS writes what the register reads at issue (sround as
it stood before a VQLT of the same bundle, a stash map's halves, a port's word, 0 of a loop level that is not there), SETS leaves a
write to land at issue + 1, and a SETS of a register that is only readable has no effect; a selector from 0x800 up in user mode
raises PRIV 0x01, and one that is not listed ILLEGAL 0x05, whatever the guard. -/
def Obligations.SpecialRegisterAccess : Prop :=
  ∀ (g : Guard) (d r : BitVec 5) (sel : BitVec 12) (imm : W32) (s : State),
    let x := s.cc.sreg r.toNat
    let is := [Instr.gets g d sel, .setsReg g sel r, .setsImm g sel imm, .setsOr g sel imm, .setsClr g sel imm]
    (listedSelector sel = false → ∀ i ∈ is, exec i s = .next (s.issueTrap ⟨1, 5, 5, 0, 0⟩)) ∧
    (listedSelector sel = true → 0x800 ≤ sel.toNat → s.cc.sys = false →
      ∀ i ∈ is, exec i s = .next (s.issueTrap ⟨2, 1, 5, sel.toNat, 0⟩)) ∧
    (listedSelector sel = true → (sel.toNat < 0x800 ∨ s.cc.sys = true) → s.cc.guard g = true →
      (∃ v, exec (.gets g d sel) s = .next (s.scalarResult 1 slS d v) ∧
        (sel = 0x000 → v = .ofNat 64 s.ctcyc) ∧ (sel = 0x001 → v = s.cc.aflags.setWidth 64) ∧
        (sel = 0x009 → v = s.cc.uistat.setWidth 64) ∧ (sel = 0x100 → v = s.cc.tinfo0) ∧
        (sel = 0x002 → v = (s.cur.sround.getD (s.ct.sroundOf s.cmember)).setWidth 64) ∧
        (sel = 0x003 → v = s.cc.gscope.setWidth 64) ∧ (sel = 0x004 → v = s.cc.hstat.setWidth 64) ∧
        (sel = 0x005 → v = s.cc.bkstat.setWidth 64) ∧ (sel = 0x006 → v = s.cc.lkstat.setWidth 64) ∧
        (sel = 0x007 → v = s.cc.ctxpri.setWidth 64) ∧ (sel = 0x008 → v = s.cc.uivec.setWidth 64) ∧
        (sel = 0x00A → v = s.cc.uipc.setWidth 64) ∧ (sel = 0x00B → v = s.cc.tdeleg.setWidth 64) ∧
        (sel = 0x00C → v = s.cc.rstpt) ∧ (sel = 0x00D → v = s.cc.tloc.setWidth 64) ∧
        (sel = 0x101 → v = s.cc.tinfo1) ∧ (sel = 0x102 → v = s.cc.tinfo2) ∧
        (sel = 0x800 → v = s.cc.smap.setWidth 64) ∧ (sel = 0x801 → v = s.cc.dbg.setWidth 64) ∧
        (∀ n, n < 6 → sel.toNat = 0x010 + n → let p := s.port n
          v.toNat = (if p.up then 1 else 0) + 2 * (p.lanes % 32) + 2 ^ 6 * (p.lat % 4096) + 2 ^ 18 * (p.epoch % 256)) ∧
        (∀ k, k < 4 → (sel.toNat = 0x018 + 2 * k → v.toNat = (s.cc.stmap.rd 0 k).toNat % 2 ^ 64) ∧
          (sel.toNat = 0x019 + 2 * k → v.toNat = (s.cc.stmap.rd 0 k).toNat / 2 ^ 64)) ∧
        (∀ n, n < 6 → sel.toNat = 0x040 + n → s.cc.loops[n]? = none → v = 0) ∧
        (∀ n : BitVec 3, sel = 0x020 + n.setWidth 12 → v = (s.cc.dreg n.toNat).setWidth 64) ∧
        (∀ n : BitVec 4, sel = 0x030 + n.setWidth 12 → v.toInt = (s.cc.ereg n.toNat).toInt) ∧
        (∀ n e, n < 6 → sel.toNat = 0x040 + n → s.cc.loops[n]? = some e → v = .ofNat 64 e.index)) ∧
      (readOnlySel sel.toNat = true →
        exec (.setsReg g sel r) s = .next s ∧ exec (.setsImm g sel imm) s = .next s ∧ exec (.setsOr g sel imm) s = .next s ∧
        exec (.setsClr g sel imm) s = .next s) ∧
      (readOnlySel sel.toNat = false →
        exec (.setsReg g sel r) s = .next (s.result 1 phSets slS 0 (.special sel.toNat .put x)) ∧
        exec (.setsImm g sel imm) s = .next (s.result 1 phSets slS 0 (.special sel.toNat .put (imm.signExtend 64))) ∧
        exec (.setsOr g sel imm) s = .next (s.result 1 phSets slS 0 (.special sel.toNat .or (imm.signExtend 64))) ∧
        exec (.setsClr g sel imm) s = .next (s.result 1 phSets slS 0 (.special sel.toNat .clr (imm.signExtend 64)))))

/-- R6, R9, R166, R204, R209, R393: what a SETS makes of the register it names when it lands: an event counter takes the value,
with bits ORed in, or with bits cleared; a domain slot stores LEVEL 6 as 7 and the ID of LEVEL 0 as 0; aflags and ctxpri keep
their reserved bits at 0; of uistat only OVF can be written, and a 1 clears it; every other register takes the value in the bits that
software may write and keeps the rest, a PC field of a group member without bit 14; sround is the member's on the tile, and a 0 becomes
1 (R237); each leaves every register of the context but the one it names. -/
def Obligations.SetsLandsByItsAccess : Prop :=
  ∀ (c : Ctx) (half : Bool) (op : SetOp) (v : W64),
    let x := v.setWidth 32
    let put (old : W32) : W32 := match op with
      | .put => x
      | .or => old ||| x
      | .clr => old &&& ~~~x
    (∀ n : BitVec 4, c.setSpecial half (0x030 + n.toNat) op v = { c with e := c.e.wr 0 n.toNat (put (c.ereg n.toNat)) }) ∧
    (∀ n : BitVec 3, ∃ w, c.setSpecial half (0x020 + n.toNat) op v = { c with d := c.d.wr (slotReset n.toNat) n.toNat w } ∧
      let p := put (c.dreg n.toNat)
      w.toNat % 8 = (if p.toNat % 8 = 6 then 7 else p.toNat % 8) ∧ w.toNat / 8 % 2 = 0 ∧ w.toNat < 256 ∧
      w.toNat / 16 = (if p.toNat % 8 = 0 then 0 else p.toNat / 16 % 16)) ∧
    (c.aflags.toNat < 0x80 → c.setSpecial half 0x001 op v = { c with aflags := put c.aflags &&& 0x7F }) ∧
    (c.ctxpri.toNat < 4 → c.setSpecial half 0x007 op v = { c with ctxpri := put c.ctxpri &&& 3 }) ∧
    (∃ w : W32, c.setSpecial half 0x009 op v = { c with uistat := w } ∧
      ∀ k, w.getLsbD k = (c.uistat.getLsbD k && !(k == 9 && (put c.uistat).getLsbD 9))) ∧
    (let store (old mask : W32) : W32 := (put old &&& mask) ||| (old &&& ~~~mask)
     let pcs (w : W32) : W32 := if half then w &&& ~~~0x4000 else w
     c.setSpecial half 0x001 op v = { c with aflags := store c.aflags 0x7F } ∧
     c.setSpecial half 0x003 op v = { c with gscope := store c.gscope 7 } ∧
     c.setSpecial half 0x004 op v = { c with hstat := store c.hstat 15 } ∧
     c.setSpecial half 0x005 op v = { c with bkstat := store c.bkstat 0x3FF } ∧
     c.setSpecial half 0x006 op v = { c with lkstat := store c.lkstat 15 } ∧
     c.setSpecial half 0x007 op v = { c with ctxpri := store c.ctxpri 3 } ∧
     c.setSpecial half 0x008 op v = { c with uivec := pcs (store c.uivec 0x80007FFF) } ∧
     c.setSpecial half 0x00A op v = { c with uipc := pcs (store c.uipc 0x7FFF) } ∧
     c.setSpecial half 0x00B op v = { c with tdeleg := pcs (store c.tdeleg 0x07FA7FFF) } ∧
     c.setSpecial half 0x800 op v = { c with smap := store c.smap 1 } ∧
     c.setSpecial half 0x801 op v = { c with dbg := store c.dbg 0x1FFFF } ∧
     ∀ (now m : Nat) (t : Tile),
      (let w := put (t.sroundOf m)
       landDest now half m (.special 0x002 op v) c t = (c, { t with sround := t.sround.wr 1 m (if w = 0 then 1 else w) })) ∧
      ∀ sel, sel ≠ 0x002 → landDest now half m (.special sel op v) c t = (c.setSpecial half sel op v, t))

/-- R402 to R407: the G slot writes its register at latency 1 (PF its queue entry at 6, whatever its guard), and a configuration is
refused as its form says; R403's update is linear, stays inside the modulo region, or counts in the reversed bits alone: their field,
read in reverse, goes on by INC modulo its size. -/
def Obligations.AddressRegisters : Prop :=
  ∀ (g : Guard) (d a : BitVec 4) (r : BitVec 5) (imm30 : BitVec 30) (imm : W32) (inc : Half) (t : BitVec 6) (q : BitVec 3) (s : State),
    let x := s.cc.sreg r.toNat
    let old := s.cc.acfg a.toNat
    let writes (i : Instr) (n : BitVec 4) (v : W32) : Prop :=
      exec i s = .next (s.result 1 phLand slG 0 (.areg s.cc.set n.toNat v))
    let sets (i : Instr) (c : ACfg) : Prop := exec i s = .next (s.result 1 phLand slG 0 (.acfg s.cc.set a.toNat c))
    let bad5 := s.issueTrap ⟨1, 5, 6, 0, 0⟩
    (s.cc.guard g = true →
      writes (.aaddReg g d a r) d (s.cc.areg a.toNat + x.setWidth 32) ∧
      writes (.aaddImm g d a imm30) d (s.cc.areg a.toNat + imm30.signExtend 32) ∧
      writes (.ali g d imm) d imm ∧ writes (.amovToA g a r) a (x.setWidth 32) ∧
      exec (.amovToS g r a) s = .next (s.scalarResult 1 slG r ((s.cc.areg a.toNat).setWidth 64)) ∧
      sets (.acfgLin g a inc) { old with mode := 0, inc := inc } ∧
      (x.toNat / 2 ^ 32 = 0 → exec (.acfgMod g a r inc) s = .next bad5) ∧
      (x.toNat / 2 ^ 32 ≠ 0 → sets (.acfgMod g a r inc)
        { old with mode := 1, inc := inc, base := x.setWidth 32, len := (x >>> 32).setWidth 32 }) ∧
      (let w := x.toNat % 32
       let zs := x.toNat / 32 % 4
       ((w = 0 ∨ 32 < w + zs) → exec (.acfgBrev g a r inc) s = .next bad5) ∧
       (¬(w = 0 ∨ 32 < w + zs) → sets (.acfgBrev g a r inc)
        { old with mode := 2, inc := inc, w := w, zs := zs, base := (x >>> 32).setWidth 32 })) ∧
      (chkLidx g t s = none →
        writes (.lidx g a t r) a (lidxOf (readTile s.cc s.ct (s.cc.vreg t.toNat)) (x.toNat % 1024)))) ∧
    (chkPf t s = none → exec (.pf g q t) s =
      .next (s.result 6 phLand slG 0 (.queue q.toNat (readTile s.cc s.ct (s.cc.vreg t.toNat))))) ∧
    (∀ (c : ACfg) (v : W32),
      (c.mode = 0 → postInc c v = v + c.inc.signExtend 32) ∧
      (c.mode = 1 → c.len ≠ 0 → c.base.toNat + c.len.toNat ≤ 2 ^ 32 → ∃ k : Int,
        ((postInc c v).toNat : Int) = v.toNat + c.inc.toInt + k * c.len.toNat ∧
        c.base.toNat ≤ (postInc c v).toNat ∧ (postInc c v).toNat < c.base.toNat + c.len.toNat) ∧
      (c.mode = 2 → c.w + c.zs ≤ 32 → (∀ k, (k < c.zs ∨ c.w + c.zs ≤ k) → (postInc c v).getLsbD k = v.getLsbD k) ∧
        ∀ m n : Nat, m < 2 ^ c.w → n < 2 ^ c.w →
          (∀ k, k < c.w → m.testBit k = v.getLsbD (c.zs + (c.w - 1 - k))) →
          (∀ k, k < c.w → n.testBit k = (postInc c v).getLsbD (c.zs + (c.w - 1 - k))) →
          (n : Int) = ((m : Int) + c.inc.toInt) % 2 ^ c.w))

/-- What is left where a slot's checks answer `tr`: that trap's entry, or else `t`. -/
def trapOr (s : State) (tr : Option Trap) (t : State) : State :=
  match tr with
  | some x => s.issueTrap x
  | none => t

/-- R188, R189, R192, R343, R417, R440, R458: an instruction whose guard is false.  The checks that stay raise their traps, each exactly
when its condition holds: ILLEGAL 0x05 for a field out of range or a LOOP at its own END, PRIV 0x01 for a system register or
instruction in user mode, the checks of R202 and R191 on the views and tiles it reads, and the interval of a multiplier or divider,
which it occupies all the same.  With none of these, PF fills its queue entry, a V-slot instruction latches, keeps or ends its holds,
and everything else stays as it was. -/
def Obligations.FalseGuardLeavesItsChecks : Prop :=
  ∀ (g : Guard) (s : State), s.cc.guard g = false →
    let checks (is : List Instr) (tr : Option Trap) : Prop := ∀ i ∈ is, exec i s = .next (trapOr s tr s)
    let quiet (is : List Instr) : Prop := checks is none
    let bad (slot : Nat) (b : Bool) : Option Trap := if b then some ⟨1, 5, slot, 0, 0⟩ else none
    let system (slot op : Nat) : Option Trap := if s.cc.sys then none else some ⟨2, 1, slot, op, 0⟩
    -- the S slot
    (∀ (d a b : BitVec 5) (imm : BitVec 42), quiet [.addReg g d a b, .subReg g d a b, .mulReg g d a b, .mulhReg g d a b, .andReg g d a b,
        .orReg g d a b, .xorReg g d a b, .shlReg g d a b, .shrReg g d a b, .sraReg g d a b, .minReg g d a b, .maxReg g d a b,
        .addImm g d a imm, .subImm g d a imm, .mulImm g d a imm, .mulhImm g d a imm, .andImm g d a imm, .orImm g d a imm,
        .xorImm g d a imm, .minImm g d a imm, .maxImm g d a imm] ∧
      checks [.shlImm g d a imm, .shrImm g d a imm, .sraImm g d a imm] (bad 5 (decide (63 < imm.toNat)))) ∧
    (∀ (d a b : BitVec 5) (fn : BitVec 6) (imm : BitVec 48) (imm39 : BitVec 39) (pd : BitVec 3) (cc tt : BitVec 4) (pa pb : Guard),
      checks [.bitc g d a fn] (bad 5 (decide (0xB ≤ fn.toNat))) ∧
      checks [.cmpReg g pd cc a b, .cmpImm g pd cc a imm39] (bad 5 (decide (0xC ≤ cc.toNat))) ∧
      quiet [.li g d imm, .plog g pd tt pa pb, .sel g d pa a b]) ∧
    (∀ (cc : BitVec 4) (a : BitVec 5) (tg : BitVec 15) (n k : Half),
      checks [.br g cc a tg] (bad 5 (decide (6 ≤ cc.toNat))) ∧
      checks [.loopReg g a tg, .loopImm g n tg] (bad 5 (tg.toNat % s.codeSize s.cc == s.cur.pc)) ∧
      checks [.lbrk g k] (bad 5 (k == 0 || decide (6 < k.toNat))) ∧ checks [.tret g] (system 5 0x20) ∧
      quiet [.jmpLabel g tg, .jmpReg g a, .callLabel g tg, .callReg g a, .ret g a, .trap g k, .uiret g, .done g, .yield g,
        .yieldField g]) ∧
    (∀ (d r : BitVec 5) (e : BitVec 4) (imm req : W32) (slot : BitVec 3) (t m : BitVec 6) (gen : Byte) (sel : BitVec 12),
      checks [.pass g d req, .passCycleReg g d req r] (bad 5 (!passReqOk req)) ∧
      checks [.gets g d sel, .setsReg g sel r, .setsImm g sel imm, .setsOr g sel imm, .setsClr g sel imm]
        (orTrap (bad 5 (!listedSelector sel)) (if 0x800 ≤ sel.toNat then system 5 sel.toNat else none)) ∧
      quiet [.waitImm g e imm, .waitReg g e r, .waitTcyc g r, .phase g slot, .view g t r, .viewCopy g t m, .viewBase g t r imm,
        .viewGen g t gen]) ∧
    -- the G slot
    (∀ (d a : BitVec 4) (r : BitVec 5) (imm30 : BitVec 30) (imm : W32) (inc : Half) (q : BitVec 3) (t : BitVec 6),
      quiet [.aaddReg g d a r, .aaddImm g d a imm30, .ali g d imm, .amovToA g a r, .amovToS g r a, .acfgLin g a inc, .acfgMod g a r inc,
        .acfgBrev g a r inc] ∧
      checks [.lidx g a t r] (s.viewCheck 6 t.toNat) ∧
      exec (.pf g q t) s = .next (trapOr s (chkPf t s)
        (s.result 6 phLand 6 0 (.queue q.toNat (readTile s.cc s.ct (s.cc.vreg t.toNat)))))) ∧
    -- the V slots
    (∀ (v1 : Bool) (d : BitVec 6) (ds r : BitVec 5) (a b m : VSrc) (x y : VOp) (rf op : BitVec 2) (sat u bc sr : Bool) (cc cb ty rows : BitVec 4)
        (n6 cols : BitVec 6) (k : BitVec 10) (n11 : BitVec 11) (nr : BitVec 5) (nc : BitVec 7) (n : VAmt) (nt : BitVec 2),
      let h : VHdr := ⟨v1, g⟩
      let sources (i : Instr) (l : List VOp) : Option Trap :=
        orTrap (bad (slV h) (!i.wf)) (firstSome (fun p => s.opTrap h p.1 p.2) (numbered 0 l))
      let latches (l : List VOp) (is : List Instr) : Prop := ∀ i ∈ is, exec i s = .next (trapOr s (sources i l) (s.holds h l))
      latches [.src a, x] [.vadd h d a x rf sat, .vsub h d a x rf sat, .vmin h d a x, .vmax h d a x, .vand h d a x, .vor h d a x,
        .vxor h d a x, .vcmp h d a x cc] ∧
      latches [.src a] [.vrsq h d a rf sat, .vexp2 h d a rf sat, .vlog2 h d a rf sat, .vcvt h d a rf sat, .vmov h d a, .vpop h ds a,
        .vextImm h ds a k, .vextReg h ds a r, .vrotr h d a n, .vrotc h d a n, .vbcr h d a n, .vbcc h d a n, .vshlScalar h d a r sat,
        .vshlImm h d a n6 sat, .vshrScalar h d a r u, .vshrImm h d a n6 u, .vredr h d a op bc rf sat, .vredc h d a op bc rf sat,
        .vqlt h d a cb nt sr, .vboff h d a cb] ∧
      latches [.src a, .src b] [.vshlTile h d a b sat, .vshrTile h d a b u, .vshuf h d a b, .vqltOffsets h d a b cb nt sr] ∧
      latches [.src m, x, y] [.vsel h d m x y] ∧
      latches [] [.vsplat h d r rf sat, .vmskPre h d n11, .vmskRect h d nr nc, .vmskRng h d r, .vshpType h d ty rows cols,
        .vshpKeep h d rows cols, .vshpReg h d r] ∧
      (let i := Instr.vmul h d a x rf sat
       exec i s = .next (trapOr s (orTrap (sources i [.src a, x]) (s.mulInterval h d)) ((s.holds h [.src a, x]).markMul h d))) ∧
      (let i := Instr.vfma h d a x y rf sat
       exec i s = .next (trapOr s (orTrap (sources i [.src a, x, y]) (s.mulInterval h d)) ((s.holds h [.src a, x, y]).markMul h d))) ∧
      (let i := Instr.vdiv h d a x rf sat
       exec i s = .next (trapOr s (orTrap (sources i [.src a, x]) (s.intervalTrap h divClass 4)) ((s.holds h [.src a, x]).markOp divClass))) ∧
      (let i := Instr.vsqrt h d a rf sat
       exec i s = .next (trapOr s (orTrap (sources i [.src a]) (s.intervalTrap h divClass 4)) ((s.holds h [.src a]).markOp divClass))) ∧
      (∀ l, let t := s.holds h l
        t = { s with ctxs := t.ctxs } ∧ t.cc = { s.cc with holds := t.cc.holds } ∧
        ∀ z w, 4 * z + w ≠ 4 * s.cur.tile + s.cur.hw → t.ctx z w = s.ctx z w) ∧
      (∀ c, s.markOp c = s.setTile s.cur.tile { s.ct with lastOp := (s.markOp c).ct.lastOp } ∧
        ∀ (lim : Nat) (w : State), w.ct.lastOp = (s.markOp c).ct.lastOp → w.cmember = s.cmember →
          w.intervalTrap h c lim = if w.now < s.now + lim then some ⟨1, 3, slV h, 0, 0⟩ else none)) ∧
    -- the A slot
    (∀ (slot : BitVec 9) (pl turn sat : Bool) (cb term l0 : BitVec 4) (n d e0 q nm1 v : BitVec 6) (h cv sc : BitVec 2) (ob first cnt : Byte)
        (r : BitVec 5) (rm km nm : Option (BitVec 6)) (e : BitVec 4) (tm : Timing),
      let range (i : Instr) : Option Trap := bad 1 (!i.wf)
      quiet [.amodeNorm g, .amodeSplit g, .wload g slot pl cb term tm, .cbflip g cb, .cbst g cb v e] ∧
      checks [.drain g d e0 l0 q cv sc turn sat tm] (range (.drain g d e0 l0 q cv sc turn sat tm)) ∧
      checks [.aclr g e0 nm1] (range (.aclr g e0 nm1)) ∧
      checks [.wloadg g n h pl term ob tm]
        (orTrap (range (.wloadg g n h pl term ob tm)) (firstSome (fun k => s.viewCheck 1 (n.toNat + k)) (List.range 16))) ∧
      checks [.wloadgImg g n h pl tm] (orTrap (system 1 3) (s.viewGen 1 n.toNat (s.cc.vreg n.toNat))) ∧
      checks [.stream g r rm km nm tm, .streamt g r rm km nm tm] (firstSome (fun k => s.viewCheck 1 k.toNat) ([rm, km, nm].filterMap id)) ∧
      checks [.wstore g v r e] (s.viewCheck 1 v.toNat) ∧
      checks [.wstorePlane g v h pl e] (system 1 8) ∧
      checks [.cbld g cb first cnt v] (orTrap (range (.cbld g cb first cnt v)) (s.viewCheck 1 v.toNat)) ∧
      checks [.cbldRestore g cb v] (orTrap (system 1 9) (s.viewCheck 1 v.toNat))) ∧
    -- the M slot
    (∀ (d p r gs n x y dr : BitVec 5) (v : BitVec 6) (ea : Ea) (z : BitVec 2) (sp sx lu z8 ui : Bool) (e opc : BitVec 4) (ssp dsp port k c : BitVec 2)
        (op3 : BitVec 3) (s1 s2 : BitVec 5) (cnt : Byte) (he : Option (BitVec 4)) (fv : Option (BitVec 6)) (ssz gsz : BitVec 4)
        (ds : BitVec 3) (sline : BitVec 13) (pay : MeshPay) (tm : Timing),
      let view := s.viewCheck 4 v.toNat
      let b := s.descBytesAt (s.descBase dr) 48
      let link (q : LinkKind) : Option Trap := s.linkSourceViews q g (s.descBase dr) b (linkD b)
      (∀ i ∈ [Instr.lds g d ea sp z sx e fv, .sts g d ea sp z e fv, .tld g v ea sp p e fv lu, .atom g d ea z8 opc s1 s2 e fv,
        .hintReq g ea cnt he, .hintFill g ea cnt he, .hintDrop g ea cnt he, .hintL2 g ea cnt he, .bcall g x y e, .fence g x y e],
        exec i s = .next (trapOr s (bad 4 (!i.wf)) s)) ∧
      (∀ i ∈ [Instr.tst g v ea sp p e fv, .atomt g v ea p op3 e fv, .msend g port (.tile v) tm, .cpyzSt g v dr r e ui d],
        exec i s = .next (trapOr s (orTrap (bad 4 (!i.wf)) view) s)) ∧
      quiet [.stash g k ssz gsz ds gs sline, .stashOff g k, .vjoin g, .cpy g dr ssp dsp e ui d, .cpyzLd g v dr r e ui d,
        .mrecv g port pay tm, .msend g port (.lines dr) tm] ∧
      checks [.tlbinv g gs n e, .tlbinvDie g gs e] (system 4 0x14) ∧
      checks [.csaveCtx g c gs e, .csaveTile g gs e, .csaveBlk g gs dr e, .csaveCode g gs e] (system 4 0x15) ∧
      checks [.cloadCtx g c gs e, .cloadTile g gs e, .cloadBlk g gs dr e, .cloadCode g gs e] (system 4 0x16) ∧
      checks [.lsend g dr d e tm] (link .send) ∧ checks [.lrecv g dr d e tm] (link .recv) ∧
      checks [.lred g dr d e tm] (link .red) ∧ checks [.lbcst g dr d e tm] (link .bcst))

/-! ### The V slots -/

/-- What a V-slot instruction that writes a tile leaves: its result in flight, element (i, j) as `f i j` gives it, then its
holds (R192, R412). -/
def vecWrite (s : State) (h : VHdr) (d : BitVec 6) (lat : Nat) (srcs : List VOp) (f : Nat → Nat → Option (Nat × BitVec 7)) :
    State :=
  (s.tileResult (slV h) lat (srcs.any opDirect) (s.cc.vreg d.toNat) f).holds h srcs

/-- R197, R199, R200: an element written through a view reads back through it, and every other element reads as before; FP32,
BF16, INT32, INT16, INT8, IDX4, IDX8, MASK and FP16 tiles in the window or above it. -/
def Obligations.ElementsWriteAndRead : Prop :=
  ∀ (c : Ctx) (t : Tile) (v : W64) (i j x : Nat), vType v < 10 → vType v ≠ 8 → i < 16 → j < 64 →
    (vBase v + footprint (vType v) ≤ 0x10000 ∨ (0x10000 ≤ vBase v ∧ vBase v + footprint (vType v) ≤ 0x20000)) →
    let r := putCells c.sysw false (elemCells v i j x) (c, t)
    r.2 = t ∧ (readTile r.1 r.2 v).elem i j = x % 2 ^ typeBits (vType v) ∧
    ∀ k l, k < 16 → l < 64 → (k, l) ≠ (i, j) → (readTile r.1 r.2 v).elem k l = (readTile c t v).elem k l

/-- R11, R214 to R217, R358, R414: a class-I result of w bits wraps, or clamps with SAT set exactly when it moved; a class-F
value that its format holds is stored as it is with no flag, a NaN as the canonical NaN, and what rounds past the largest
finite value as ∞, or as that value under SAT, with OF and NX.  Any other value becomes the nearest multiple of the step that its
magnitude leaves its format, the even one where two are equally near; NX says that it moved, and UF that it moved and was tiny after
rounding to the format's precision. -/
def Obligations.StoredResults : Prop :=
  (∀ (w : Nat) (x : Int), 0 < w →
    let lo := -(2 ^ (w - 1) : Int)
    let hi := (2 ^ (w - 1) : Int) - 1
    let p := storeI w false x
    let q := storeI w true x
    p.1 < 2 ^ w ∧ q.1 < 2 ^ w ∧ (2 ^ w : Int) ∣ (asSigned w p.1 - x) ∧ p.2 = 0 ∧
    asSigned w q.1 = max lo (min hi x) ∧ (q.2 = if lo ≤ x ∧ x ≤ hi then 0 else flSAT)) ∧
  ∀ f ∈ [fp32, bf16, fp16],
    (∀ (sat : Bool) (b : Nat), b < 2 ^ f.width → (f.value b).isNan = false → f.round sat (f.value b) = (b, 0)) ∧
    (∀ (sat : Bool) (b : Nat), (f.value b).isNan = true → f.round sat (f.value b) = (f.nanBits, 0)) ∧
    (∀ (sat neg : Bool) (m : Nat) (e : Int) (st : Bool), m ≠ 0 → 2 ^ (f.ew - 1) ≤ e + (Nat.log2 m : Nat) →
      f.round sat (.num neg m e st) = (f.signBit neg + (if sat then f.maxBits else f.infBits), flOF ||| flNX)) ∧
    (∀ (sat neg : Bool) (e : Int), f.round sat (.num neg 0 e false) = (f.signBit neg, 0)) ∧
    ∀ (sat neg : Bool) (m : Nat) (e : Int) (st : Bool), m ≠ 0 →
      let l : Int := e + (Nat.log2 m : Nat)
      let q : Int := max l f.emin - (f.p - 1 : Nat)
      let q1 : Int := l - (f.p - 1 : Nat)
      -- a sticky value lies strictly between m and m + 1: X is twice its count of 2^e, or the odd number between
      let X : Nat := 2 * m + (if st then 1 else 0)
      (st = false ∨ e < q) → ∃ n : Nat,
        (q ≤ e → n = m * 2 ^ (e - q).toNat) ∧
        (e < q → let D := 2 ^ (q - e).toNat
          ((2 * n : Int) - 1) * D ≤ X ∧ (X : Int) ≤ (2 * n + 1) * D ∧
          (((2 * n : Int) - 1) * D = X ∨ (X : Int) = (2 * n + 1) * D → n % 2 = 0)) ∧
        let big := n ≠ 0 ∧ (2 ^ (f.ew - 1) : Int) ≤ q + (Nat.log2 n : Nat)
        let inexact := e < q ∧ X ≠ 2 * n * 2 ^ (q - e).toNat
        let tiny := l < f.emin ∧ ¬(l = f.emin - 1 ∧ e < q1 ∧ (2 ^ (f.p + 1) - 1) * 2 ^ (q1 - e).toNat ≤ X)
        (big → f.round sat (.num neg m e st) = (f.signBit neg + (if sat then f.maxBits else f.infBits), flOF ||| flNX)) ∧
        (¬big → ∃ b fl, f.round sat (.num neg m e st) = (b, fl) ∧
          (f.value b = .num neg n q false ∨ (n = 2 ^ f.p ∧ f.value b = .num neg (2 ^ (f.p - 1)) (q + 1) false)) ∧
          (¬inexact → fl = 0) ∧ (inexact → ¬tiny → fl = flNX) ∧ (inexact → tiny → fl = flNX ||| flUF))

/-- R412, R414 to R418: the arithmetic of two and three operands completes where its checks pass: an element active in every
source gets the exact result stored once, in class F with the flags of both, in class I wrapped or clamped; 4 cycles (2 for
VMIN and VMAX, 14 for VDIV), and 4 more for a direct source; the FP32 multiplies and VDIV mark the interval they occupy. -/
def Obligations.VectorArithmetic : Prop :=
  ∀ (h : VHdr) (d : BitVec 6) (a : VSrc) (b c : VOp) (rf : BitVec 2) (sat : Bool) (s : State), s.cc.guard h.g = true →
    let ty := vType (s.cc.vreg d.toNat)
    let A := s.operand h 0 (.src a)
    let B := s.operand h 1 b
    let C := s.operand h 2 c
    let put (x : Fv × BitVec 7) : Nat × BitVec 7 := let y := storeF ty rf.toNat sat x.1; (y.1, x.2 ||| y.2)
    let pick (x : Fv) : Nat × BitVec 7 := storeF ty 0 false x
    let two (F : Fv → Fv → Nat × BitVec 7) (I : Int → Int → Nat × BitVec 7) (i j : Nat) : Option (Nat × BitVec 7) :=
      if A.active i j && B.active i j then
        some (if isF ty then F (A.fval s.ct i j) (B.fval s.ct i j) else I (A.ival i j) (B.ival i j)) else none
    let three (i j : Nat) : Option (Nat × BitVec 7) :=
      if A.active i j && B.active i j && C.active i j then
        some (if isF ty then put ((A.fval s.ct i j).fma (B.fval s.ct i j) (C.fval s.ct i j))
          else storeI (typeBits ty) sat (A.ival i j * B.ival i j + C.ival i j)) else none
    let int (x : Int) : Nat × BitVec 7 := storeI (typeBits ty) sat x
    let done (i : Instr) (t : State) : Prop := exec i s = .next t
    let fits (o : List (Option Nat)) : Bool := arithTypes ty rf.toNat o
    let chk (i : Instr) (l : List VOp) (r : BitVec 2) : Prop := s.chkValue h i d l (fun x y => arithTypes x r.toNat y) none = none
    (chk (.vadd h d a b rf sat) [.src a, b] rf → done (.vadd h d a b rf sat)
      (vecWrite s h d 4 [.src a, b] (two (fun x y => put (x.add y)) (fun x y => int (x + y))))) ∧
    (chk (.vsub h d a b rf sat) [.src a, b] rf → done (.vsub h d a b rf sat)
      (vecWrite s h d 4 [.src a, b] (two (fun x y => put (x.sub y)) (fun x y => int (x - y))))) ∧
    (chkVmul h d a b rf sat s = none → done (.vmul h d a b rf sat)
      ((vecWrite s h d 4 [.src a, b] (two (fun x y => put (x.mul y)) (fun x y => int (x * y)))).markMul h d)) ∧
    (chkVfma h d a b c rf sat s = none → done (.vfma h d a b c rf sat)
      ((vecWrite s h d 4 [.src a, b, c] three).markMul h d)) ∧
    (chk (.vmin h d a b) [.src a, b] 0 → done (.vmin h d a b)
      (vecWrite s h d 2 [.src a, b] (two (fun x y => pick (x.pick false y)) (fun x y => storeI (typeBits ty) true (min x y))))) ∧
    (chk (.vmax h d a b) [.src a, b] 0 → done (.vmax h d a b)
      (vecWrite s h d 2 [.src a, b] (two (fun x y => pick (x.pick true y)) (fun x y => storeI (typeBits ty) true (max x y))))) ∧
    (chkVdiv h d a b rf sat s = none → done (.vdiv h d a b rf sat)
      ((vecWrite s h d 14 [.src a, b] (two (fun x y => put (x.div y)) (fun x _ => int x))).markOp divClass))

/-- R418, R419: the functions of one operand and VCVT complete where their checks pass: √ in 14 cycles, the others in 8, VCVT
in 3; the value rounds once to the destination, or to the nearest integer, clamped. -/
def Obligations.VectorFunctions : Prop :=
  ∀ (h : VHdr) (d : BitVec 6) (a : VSrc) (rf : BitVec 2) (sat : Bool) (s : State), s.cc.guard h.g = true →
    let ty := vType (s.cc.vreg d.toNat)
    let A := s.operand h 0 (.src a)
    let of (f : Fv → Fv × BitVec 7) (i j : Nat) : Option (Nat × BitVec 7) :=
      if A.active i j then
        let x := f (A.fval s.ct i j)
        let y := storeF ty rf.toNat sat x.1
        some (y.1, x.2 ||| y.2)
      else none
    let chk (i : Instr) : Prop := s.chkValue h i d [.src a] (fOnly rf) none = none
    (chkVsqrt h d a rf sat s = none →
      exec (.vsqrt h d a rf sat) s = .next ((vecWrite s h d 14 [.src a] (of Fv.sqrt)).markOp divClass)) ∧
    (chk (.vrsq h d a rf sat) → exec (.vrsq h d a rf sat) s = .next (vecWrite s h d 8 [.src a] (of Fv.rsq))) ∧
    (chk (.vexp2 h d a rf sat) → exec (.vexp2 h d a rf sat) s = .next (vecWrite s h d 8 [.src a] (of Fv.exp2))) ∧
    (chk (.vlog2 h d a rf sat) → exec (.vlog2 h d a rf sat) s = .next (vecWrite s h d 8 [.src a] (of Fv.log2))) ∧
    (chkVcvt h d a rf sat s = none → ∃ f, exec (.vcvt h d a rf sat) s = .next (vecWrite s h d 3 [.src a] f) ∧
      (∀ i j, A.active i j = false → f i j = none) ∧
      ∀ i j, A.active i j = true →
        (isF ty = true → isFsrc A.ty = true → f i j = some (storeF ty rf.toNat sat (A.fval s.ct i j))) ∧
        (isF ty = true → isFsrc A.ty = false → f i j = some (storeF ty rf.toNat sat (Fv.ofInt (A.ival i j)))) ∧
        (isF ty = false → isFsrc A.ty = true → ∃ n fl, f i j = some (n, fl) ∧ n < 2 ^ typeBits ty ∧
          (n : Int) % 2 ^ typeBits ty = (roundInt (typeBits ty) (A.fval s.ct i j)).1 % 2 ^ typeBits ty ∧
          fl = (roundInt (typeBits ty) (A.fval s.ct i j)).2) ∧
        (isF ty = false → isFsrc A.ty = false → f i j = some (storeI (typeBits ty) true (A.ival i j))))

/-- Two values that are no NaN, as integers that compare as the values do: infinities beyond every number, −0 equal to +0. -/
def comparable : Fv → Fv → Int × Int
  | .num na ma ea _, .num nb mb eb _ =>
    let e := min ea eb
    (signed na (ma * 2 ^ (ea - e).toNat), signed nb (mb * 2 ^ (eb - e).toNat))
  | x, y => (rank x, rank y)
where rank : Fv → Int
  | .inf neg => if neg then -1 else 1
  | _ => 0

/-- R420 to R426: moves, selection, logic, shifts, compares and masks complete where their checks pass, in 2 cycles (VMSK
in 1), and write each element as their rules say; the flags of a shift are those of the store; a class-F compare with a NaN holds
for ne and un alone, and un for nothing else. -/
def Obligations.VectorRawResults : Prop :=
  ∀ (h : VHdr) (d : BitVec 6) (a m : VSrc) (b c : VOp) (r : BitVec 5) (rf : BitVec 2) (sat u : Bool) (cc : BitVec 4)
    (n6 : BitVec 6) (n11 : BitVec 11) (nr : BitVec 5) (nc : BitVec 7) (bt : VSrc) (s : State), s.cc.guard h.g = true →
    let ty := vType (s.cc.vreg d.toNat)
    let w := typeBits ty
    let A := s.operand h 0 (.src a)
    let B := s.operand h 1 b
    let C := s.operand h 2 c
    let M := s.operand h 0 (.src m)
    let x := (s.cc.sreg r.toNat).toNat
    let done (i : Instr) (t : State) : Prop := exec i s = .next t
    let both (f : Nat → Nat → Nat) (i j : Nat) : Option (Nat × BitVec 7) :=
      if A.rawActive i j && B.rawActive i j then some (f (A.raw w i j) (B.raw w i j), 0) else none
    let logic (i : Instr) (f : Nat → Nat → Nat) : Prop :=
      s.chkRaw h i d [] [(0, .src a), (1, b)] true = none → done i (vecWrite s h d 2 [.src a, b] (both f))
    let bit (f : Nat → Nat → Bool) : State := s.tileResult (slV h) 1 false (s.cc.vreg d.toNat) (fun i j => some (b2n (f i j), 0))
    let shl (k : Int) (e : Int) : Nat × BitVec 7 := storeI w sat (e * 2 ^ (max 0 (min 64 k)).toNat)
    let shr (k : Int) (e : Int) : Nat × BitVec 7 :=
      (if u then wrap w e / 2 ^ (max 0 (min 64 k)).toNat else wrap w (e / 2 ^ (max 0 (min 64 k)).toNat), 0)
    let one (f : Int → Nat × BitVec 7) (i j : Nat) : Option (Nat × BitVec 7) :=
      if A.active i j then some (f (A.ival i j)) else none
    let perTile (f : Int → Int → Nat × BitVec 7) (i j : Nat) : Option (Nat × BitVec 7) :=
      let T := s.operand h 1 (.src bt)
      if A.active i j && T.active i j then some (f (T.ival i j) (A.ival i j)) else none
    (s.chkRaw h (.vmov h d a) d [] [(0, .src a)] true = none → done (.vmov h d a)
      (vecWrite s h d 2 [.src a] (fun i j => if A.rawActive i j then some (A.raw w i j, 0) else none))) ∧
    (chkVsplat h d r rf sat s = none → done (.vsplat h d r rf sat)
      (s.tileResult (slV h) 2 false (s.cc.vreg d.toNat) (fun _ _ => some
        (if isF ty then storeF ty rf.toNat sat (fp32.value (x % 2 ^ 32))
          else if isI ty then storeI w true (s.cc.sreg r.toNat).toInt else (x % 2 ^ w, 0))))) ∧
    (chkVsel h d m b c s = none → done (.vsel h d m b c)
      (vecWrite s h d 2 [.src m, b, c] (fun i j =>
        if B.live i j && C.live i j then some (if M.maskBit i j then B.raw w i j else C.raw w i j, 0) else none))) ∧
    logic (.vand h d a b) Nat.land ∧ logic (.vor h d a b) Nat.lor ∧ logic (.vxor h d a b) Nat.xor ∧
    (s.chkShift h d a (.tile bt) = none →
      done (.vshlTile h d a bt sat) (vecWrite s h d 2 [.src a, .src bt] (perTile shl)) ∧
      done (.vshrTile h d a bt u) (vecWrite s h d 2 [.src a, .src bt] (perTile shr))) ∧
    (s.chkShift h d a (.scalar r) = none →
      done (.vshlScalar h d a r sat) (vecWrite s h d 2 [.src a] (one (shl (s.cc.sreg r.toNat).toInt))) ∧
      done (.vshrScalar h d a r u) (vecWrite s h d 2 [.src a] (one (shr (s.cc.sreg r.toNat).toInt)))) ∧
    (s.chkShift h d a (.imm n6) = none →
      done (.vshlImm h d a n6 sat) (vecWrite s h d 2 [.src a] (one (shl n6.toNat))) ∧
      done (.vshrImm h d a n6 u) (vecWrite s h d 2 [.src a] (one (shr n6.toNat)))) ∧
    (chkVcmp h d a b cc s = none → ∃ f : Nat → Nat → Bool, done (.vcmp h d a b cc)
        (vecWrite s h d 2 [.src a, b] (fun i j => if A.active i j && B.active i j then some (b2n (f i j), 0) else none)) ∧
      ∀ i j, isFsrc A.ty = false → cc.toNat < 6 →
        let e := A.ival i j
        let g := B.ival i j
        (cc = 0 → (f i j = true ↔ e = g)) ∧ (cc = 1 → (f i j = true ↔ e ≠ g)) ∧ (cc = 2 → (f i j = true ↔ e < g)) ∧
        (cc = 3 → (f i j = true ↔ e ≤ g)) ∧ (cc = 4 → (f i j = true ↔ e > g)) ∧ (cc = 5 → (f i j = true ↔ e ≥ g))) ∧
    (chkVcmp h d a b cc s = none → ∃ f : Nat → Nat → Bool, done (.vcmp h d a b cc)
        (vecWrite s h d 2 [.src a, b] (fun i j => if A.active i j && B.active i j then some (b2n (f i j), 0) else none)) ∧
      ∀ i j, isFsrc A.ty = true →
        let p := A.fval s.ct i j
        let q := B.fval s.ct i j
        let un := p = .nan ∨ q = .nan
        let e := (comparable p q).1
        let g := (comparable p q).2
        (cc = 0 → (f i j = true ↔ ¬un ∧ e = g)) ∧ (cc = 1 → (f i j = true ↔ un ∨ e ≠ g)) ∧
        (cc = 2 → (f i j = true ↔ ¬un ∧ e < g)) ∧ (cc = 3 → (f i j = true ↔ ¬un ∧ e ≤ g)) ∧
        (cc = 4 → (f i j = true ↔ ¬un ∧ e > g)) ∧ (cc = 5 → (f i j = true ↔ ¬un ∧ e ≥ g)) ∧ (cc = 6 → (f i j = true ↔ un))) ∧
    (s.chkMask h (.vmskPre h d n11) d true = none → done (.vmskPre h d n11) (bit (fun i j => decide (64 * i + j < n11.toNat)))) ∧
    (s.chkMask h (.vmskRect h d nr nc) d true = none →
      done (.vmskRect h d nr nc) (bit (fun i j => decide (i < nr.toNat ∧ j < nc.toNat)))) ∧
    (chkVmskRng h d r s = none →
      done (.vmskRng h d r) (bit (fun i j => decide (x % 2 ^ 11 ≤ 64 * i + j ∧ 64 * i + j < x / 2 ^ 16 % 2 ^ 11))))

/-- R427 to R431: counts and extracts wait for a scalar register (an element of class F as the FP32 bits of its value, a NaN the
canonical one), rotations, broadcasts and shuffles for a tile, each as its
rule picks the elements. -/
def Obligations.VectorMovement : Prop :=
  ∀ (h : VHdr) (d : BitVec 6) (ds r : BitVec 5) (a b : VSrc) (k : BitVec 10) (n : VAmt) (s : State), s.cc.guard h.g = true →
    let q := s.source h 0 a
    let B := s.operand h 1 (.src b)
    let nr : Int := vRows q.view + 1
    let nc : Int := vCols q.view + 1
    let amount : Nat := match n with
      | .imm x => x.toNat
      | .scalar x => (s.cc.sreg x.toNat).toNat
    let scalar (i : Instr) (lat : Nat) (v : W64) : Prop :=
      exec i s = .next ((s.scalarResult (if srcDirect a then lat + 4 else lat) (slV h) ds v).holds h [.src a])
    let moves (i : Instr) (lat : Nat) (f : Nat → Nat → Option Nat) : Prop := s.chkRaw h i d [] [(0, .src a)] true = none →
      exec i s = .next (vecWrite s h d lat [.src a] (fun i j => (f i j).map (fun x => (x, 0))))
    let ext (k : Nat) (v : W64) : Prop :=
      (vActive q.view (k / 64) (k % 64) = false → v = 0) ∧
      (vActive q.view (k / 64) (k % 64) = true →
        let e := q.elem (k / 64) (k % 64)
        (vType q.view = 0 → e < 2 ^ 32 → (fp32.value e).isNan = false → v.toNat = e) ∧
        (isF (vType q.view) = true → ((fmtOf (vType q.view)).value e).isNan = true → v.toNat = 0x7FC00000) ∧
        (vType q.view = 1 → e < 2 ^ 16 → (bf16.value e).isNan = false → v.toNat = e * 2 ^ 16) ∧
        (vType q.view = 9 → e < 2 ^ 16 →
          (∀ neg, fp16.value e = .inf neg → v.toNat = fp32.signBit neg + 0x7F800000) ∧
          ∀ neg m ex st, fp16.value e = .num neg m ex st →
            v.toNat < 2 ^ 32 ∧ ∃ k : Nat, fp32.value v.toNat = .num neg (m * 2 ^ k) (ex - k) false) ∧
        (isI (vType q.view) = true → v.toInt = asSigned (typeBits (vType q.view)) e) ∧
        (isF (vType q.view) = false → isI (vType q.view) = false → v.toNat = e % 2 ^ 64))
    (s.chkScalarDest h a = none →
      (∃ v : W64, scalar (.vpop h ds a) 4 v ∧
        v.toNat = ((activeElems q.view).filter (fun p => q.elem p.1 p.2 != 0)).length) ∧
      (∃ v, scalar (.vextImm h ds a k) 3 v ∧ ext k.toNat v) ∧
      (∃ v, scalar (.vextReg h ds a r) 3 v ∧ ext ((s.cc.sreg r.toNat).toNat % 1024) v)) ∧
    moves (.vrotr h d a n) 3 (fun i j => if (i : Int) < nr ∧ (j : Int) < nc then some (q.elem (((i : Int) - amount) % nr).toNat j) else none) ∧
    moves (.vrotc h d a n) 2 (fun i j => if (i : Int) < nr ∧ (j : Int) < nc then some (q.elem i (((j : Int) - amount) % nc).toNat) else none) ∧
    moves (.vbcr h d a n) 3 (fun _ j => some (if vActive q.view (amount % 16) j then q.elem (amount % 16) j else 0)) ∧
    moves (.vbcc h d a n) 2 (fun i _ => some (if vActive q.view i (amount % 64) then q.elem i (amount % 64) else 0)) ∧
    (chkVshufAll h d a b s = none → exec (.vshuf h d a b) s = .next (vecWrite s h d 6 [.src a, .src b] (fun i j =>
      if B.active i j then
        let v := B.ival i j
        some (if 0 ≤ v ∧ v ≤ 1023 ∧ vActive q.view (v.toNat / 64) (v.toNat % 64) then q.elem (v.toNat / 64) (v.toNat % 64) else 0, 0)
      else none)))

/-- R432, R433: the reductions complete where their checks pass, VREDR in 8 cycles and VREDC in 5; a destination element of a
group gets one stored result of the group's contributors, in class I the exact sum, or the greatest or the least. -/
def Obligations.VectorReductions : Prop :=
  (∀ (h : VHdr) (d : BitVec 6) (a : VSrc) (op : BitVec 2) (bc : Bool) (rf : BitVec 2) (sat : Bool) (s : State),
    s.cc.guard h.g = true →
    let ty := vType (s.cc.vreg d.toNat)
    let A := s.operand h 0 (.src a)
    let col (j : Nat) : List (Nat × Nat) := ((List.range 16).map (fun i => (i, j))).filter (fun p => A.active p.1 p.2)
    let row (i : Nat) : List (Nat × Nat) := ((List.range 64).map (fun j => (i, j))).filter (fun p => A.active p.1 p.2)
    (s.chkRed (.vredr h d a op bc rf sat) true h d a bc rf = none → ∃ f,
      exec (.vredr h d a op bc rf sat) s = .next (vecWrite s h d 8 [.src a] f) ∧
      ∀ i j, i < 16 → j < 64 →
        f i j = if bc = true ∨ i = 0 then some (redStore s.ct ty op.toNat rf.toNat sat A (col j)) else none) ∧
    (s.chkRed (.vredc h d a op bc rf sat) false h d a bc rf = none → ∃ f,
      exec (.vredc h d a op bc rf sat) s = .next (vecWrite s h d 5 [.src a] f) ∧
      ∀ i j, i < 16 → j < 64 →
        f i j = if bc = true ∨ j = 0 then some (redStore s.ct ty op.toNat rf.toNat sat A (row i)) else none)) ∧
  (∀ (t : Tile) (ty rf : Nat) (sat : Bool) (A : Opnd) (ps : List (Nat × Nat)), isF ty = false →
    let xs := ps.map (fun p => A.ival p.1 p.2)
    redStore t ty 0 rf sat A ps = storeI (typeBits ty) sat xs.sum ∧
    (∀ m ∈ xs, (∀ x ∈ xs, x ≤ m) → redStore t ty 1 rf sat A ps = storeI (typeBits ty) sat m) ∧
    (∀ m ∈ xs, (∀ x ∈ xs, m ≤ x) → redStore t ty 2 rf sat A ps = storeI (typeBits ty) sat m) ∧
    (isI ty = true → ps = [] → asSigned (typeBits ty) (redStore t ty 1 rf sat A ps).1 = -(2 ^ (typeBits ty - 1)) ∧
      asSigned (typeBits ty) (redStore t ty 2 rf sat A ps).1 = 2 ^ (typeBits ty - 1) - 1))

/-- R433: the result of a reduction does not depend on the order of its contributors, in class F and in class I. -/
def Obligations.ReductionsIgnoreOrder : Prop :=
  ∀ (t : Tile) (ty op rf : Nat) (sat : Bool) (A : Opnd) (ps qs : List (Nat × Nat)), ps.Perm qs →
    redStore t ty op rf sat A ps = redStore t ty op rf sat A qs

/-- R434: VSHP rewrites ROWS, COLS and, unless it keeps it, TYPE of its view register at issue + 1, and no other field; a TYPE of
10 or more raises ILLEGAL 0x05.
That a TYPE of 10 to 15 in the register raises nothing where KT keeps the view's own TYPE is the model's own reading of R434
(log entry 20). -/
def Obligations.ShapeState : Prop :=
  ∀ (h : VHdr) (d : BitVec 6) (ty rows : BitVec 4) (cols : BitVec 6) (r : BitVec 5) (s : State), s.cc.guard h.g = true →
    let old := s.cc.vreg d.toNat
    let x := (s.cc.sreg r.toNat).toNat
    let writes (i : Instr) (v : W64) : Prop := exec i s = .next (s.result 1 phLand (slV h) 0 (.vreg s.cc.set d.toNat v))
    let shaped (v : W64) (nr nc : Nat) : Prop := vRows v = nr ∧ vCols v = nc ∧ vBase v = vBase old / 128 * 128 ∧
      vCb v = vCb old ∧ vGen v = vGen old ∧ vGchk v = vGchk old ∧ vXw v = vXw old
    (ty.toNat < 10 → ∃ v, writes (.vshpType h d ty rows cols) v ∧ shaped v rows.toNat cols.toNat ∧ vType v = ty.toNat) ∧
    (10 ≤ ty.toNat → exec (.vshpType h d ty rows cols) s = .next (s.issueTrap (illegal5 (slV h)))) ∧
    (∃ v, writes (.vshpKeep h d rows cols) v ∧ shaped v rows.toNat cols.toNat ∧ vType v = vType old) ∧
    (x / 2 ^ 14 % 2 = 0 → x / 2 ^ 10 % 16 < 10 → ∃ v, writes (.vshpReg h d r) v ∧
      shaped v (x / 2 ^ 6 % 16) (x % 64) ∧ vType v = x / 2 ^ 10 % 16) ∧
    (x / 2 ^ 14 % 2 = 0 → 10 ≤ x / 2 ^ 10 % 16 → exec (.vshpReg h d r) s = .next (s.issueTrap (illegal5 (slV h)))) ∧
    (x / 2 ^ 14 % 2 = 1 → ∃ v, writes (.vshpReg h d r) v ∧ shaped v (x / 2 ^ 6 % 16) (x % 64) ∧ vType v = vType old)

/-- R236, R237, R435 to R437: VQLT in both forms and VBOFF complete where their checks pass; without `.sr` VQLT leaves sround,
and with it the member's sround is what its last draw left; each term of an element adds one index, 15 for a NaN or an
infinity; a block offset lies in −128..127. -/
def Obligations.Quantisation : Prop :=
  (∀ (h : VHdr) (d : BitVec 6) (a b : VSrc) (cb : BitVec 4) (nt : BitVec 2) (sr : Bool) (s : State), s.cc.guard h.g = true →
    (s.chkQlt (.vqlt h d a cb nt sr) h d a none cb (nt.toNat + 1) = none →
      exec (.vqlt h d a cb nt sr) s = .next ((s.qltWrite h d a none cb (nt.toNat + 1) sr).holds h [.src a])) ∧
    (s.chkQlt (.vqltOffsets h d a b cb nt sr) h d a (some b) cb (nt.toNat + 1) = none →
      exec (.vqltOffsets h d a b cb nt sr) s =
        .next ((s.qltWrite h d a (some b) cb (nt.toNat + 1) sr).holds h [.src a, .src b])) ∧
    (∀ ob, (s.qltWrite h d a ob cb (nt.toNat + 1) false).tiles = s.tiles) ∧
    (∀ ob, let els := s.qltElems (s.source h 0 a) (ob.map (s.source h 1)) (s.qltDests d (nt.toNat + 1))
      ((s.qltWrite h d a ob cb (nt.toNat + 1) true).tile s.cur.tile).sroundOf s.cmember =
        (qltTerms (s.activePlane cb.toNat) true (List.range (nt.toNat + 1)) els (s.ct.sroundOf s.cmember)).2) ∧
    (chkVboff h d a cb s = none → ∃ (f : Nat → Nat → Option (Nat × BitVec 7)) (off : Nat → Int),
      exec (.vboff h d a cb) s = .next (vecWrite s h d 4 [.src a] f) ∧ (∀ m, -128 ≤ off m ∧ off m ≤ 127) ∧
      ∀ i j, f i j = if 64 * i + j < 128 then some (wrap 8 (off (64 * i + j)), 0) else none)) ∧
  ∀ (pl : Table (BitVec 128)) (sr : Bool) (ts : List Nat) (xs : List QElem) (st : W32),
    let r := qltTerms pl sr ts xs st
    r.1.length = xs.length ∧ (sr = false → r.2 = st) ∧
    ∀ (k : Nat) (x y : QElem), xs[k]? = some x → r.1[k]? = some y →
      (y.i, y.j, y.b, y.bad) = (x.i, x.j, x.b, x.bad) ∧ y.idx.length = x.idx.length + ts.length ∧
      (x.bad = true → y.idx = x.idx ++ List.replicate ts.length 15)

/-- R192 to R194, R332: a source with a hold is latched as it was read at issue; from then on a held operand of its position names that
copy, in every later state that still has the latch, whatever the view or the bytes have become, and of the checks of R202 only the
generation is made again (R191); a source without one ends the hold of its position, after which a held operand raises ILLEGAL 0x05;
neither touches another position's, and a held operand keeps its own.  In system mode, or while a delegated handler's record is open,
the latches stand as they are, and a hold, a queue entry or a held operand raises ILLEGAL 0x07. -/
def Obligations.HeldOperands : Prop :=
  ∀ (h : VHdr) (pos : Nat) (s : State),
    s.holdSrc h pos .held = s ∧
    (s.queueBarred = false → ∀ v, v ≠ VSrc.held →
      let t := s.holdSrc h pos v
      t = s.modCC (fun c => { c with holds := t.cc.holds }) ∧
      ∀ u : State, u.cc.holds = t.cc.holds →
        ((∃ n, v = VSrc.tile true n) ∨ (∃ n, v = VSrc.queue true n) →
          u.source h pos .held = s.source h pos v ∧
          (u.queueBarred = false → u.sourceTrap h pos .held = u.viewGen (slV h) 0 (s.source h pos v).view)) ∧
        ((∃ n, v = VSrc.tile false n) ∨ (∃ n, v = VSrc.queue false n) →
          u.queueBarred = false → u.sourceTrap h pos .held = some (illegal5 (slV h))) ∧
        ∀ h' p, p < 3 → pos < 3 → (h'.v1, p) ≠ (h.v1, pos) → u.source h' p .held = s.source h' p .held) ∧
    (s.queueBarred = true → ∀ v, s.holdSrc h pos v = s ∧
      ((∀ n, v ≠ VSrc.tile false n) → s.sourceTrap h pos v = some ⟨1, 7, slV h, 0, 0⟩))

/-! ### The array engine, the codebooks and the commands of the tile's engines -/

/-- What an accepted engine command leaves: it stands last in its engine's list `of t'` and its event is due at cycle `at_` of its
clock; no register, memory or field changes, and no other tile. -/
def Engaged (s t : State) (i : Instr) (c : ECmd) (of : Tile → List ECmd) (at_ : Nat) (ev : Instr) : Prop :=
  (of t.ct).getLast? = some c ∧ c.ins = i ∧ c.id = s.nextId ∧ c.pc = s.cur.pc ∧ c.hw = s.cur.hw ∧ c.sys = s.cc.sys ∧
  (∃ d ∈ t.agenda, d.clk = s.eclk ∧ d.at_ = at_ ∧ d.ev = ev) ∧
  t.ctxs = s.ctxs ∧ t.dies = s.dies ∧ t.fields = s.fields ∧ t.cmds = s.cmds ∧ ∀ x, x ≠ s.cur.tile → t.tile x = s.tile x

/-- R206, R443 to R446, R449 to R451: an array command whose checks pass is accepted with its start cycle; WLOAD and WLOADG
write their plane 24 cycles on, DRAIN its tile 16 cycles on, a stream fills its entries until T + M × p + 519 and pays its
charge, and ACLR writes at issue + 2. -/
def Obligations.ArrayCommandsAreAccepted : Prop :=
  ∀ (g : Guard) (slot : BitVec 9) (pl turn sat : Bool) (cb term l0 : BitVec 4) (n d e0 q nm1 : BitVec 6) (h cv sc : BitVec 2) (ob : Byte)
    (sr : BitVec 5) (rm km nm : Option (BitVec 6)) (tm : Timing) (s : State), s.cc.guard g = true →
    let t0 := (s.estart tm).toNat
    let self : BitVec 8 := .ofNat 8 s.cur.tile
    let accepts (i : Instr) (last : Nat) (ev : Nat → Instr) (at_ : Nat) : Prop := ∃ t c, exec i s = .next t ∧
      Engaged s t i c Tile.arr at_ (ev s.nextId) ∧ c.last = last ∧ t.sb = s.sb ∧ t.col = s.col
    let starts (i : Instr) (last : Nat) (ev : Nat → Instr) (at_ : Nat) : Prop := accepts i last ev at_ ∧
      accepts i last (fun id => .engineStart self .array id) t0
    (chkWload g pl cb tm s = none →
      starts (.wload g slot pl cb term tm) (t0 + 24) (fun id => .planeWrite self id) (t0 + 24)) ∧
    (chkWloadg (.wloadg g n h pl term ob tm) g n pl tm s = none →
      starts (.wloadg g n h pl term ob tm) (t0 + 24) (fun id => .planeWrite self id) (t0 + 24)) ∧
    (chkWloadgImg g n pl tm s = none →
      starts (.wloadgImg g n h pl tm) (t0 + 24) (fun id => .planeWrite self id) (t0 + 24)) ∧
    (chkDrain (.drain g d e0 l0 q cv sc turn sat tm) g d e0 l0 cv sc turn tm s = none →
      starts (.drain g d e0 l0 q cv sc turn sat tm) t0 (fun id => .drainWrite self id) (t0 + 16)) ∧
    (chkAclr g e0 nm1 s = none →
      accepts (.aclr g e0 nm1) (s.enow + 2) (fun id => .aclrWrite self id) (s.enow + 2)) ∧
    (chkStream g sr rm km nm tm s = none → ∀ i ∈ [Instr.stream g sr rm km nm tm, .streamt g sr rm km nm tm], ∃ t c,
      exec i s = .next t ∧ Engaged s t i c Tile.arr t0 (.engineStart self .array s.nextId) ∧
      let w := (streamD (s.cc.sreg sr.toNat))
      c.last = t0 + w.m * w.p + 519 ∧ t.col = (s.payPower s.cf 0 (s.streamCharges w (s.estart tm))).col)

/-- R245, R251, R253, R450, R451: the events of accepted array commands.  A plane takes the content its load sampled; a sum is
added to one entry and to no other; a drained tile and its flags land in the context that issued; ACLR leaves 0 in its
entries and every other entry as it was; an event whose command is gone changes nothing.  An unmasked row that the stream reads from
its tile's joined scratchpad, and whose unmasked pairs are all valid (R252), enters: each pass leaves for each lane the sum of the
lane's contributions (R247 to R250), over the plane's listed cells in rising order (a cell that the table does not list is the valid
zero of R242, which adds nothing), to land in the entries from cycle now + pass + 265 on. -/
def Obligations.ArrayEventsLand : Prop :=
  ∀ (x : BitVec 8) (id : Nat) (s : State) (row pass lane : Nat),
    let T := s.tile x.toNat
    (findE T.arr id = none → ∀ i ∈ [Instr.planeWrite x id, .streamRowAdmit x id row, .accumulatorLanding x id row pass lane,
      .drainWrite x id, .aclrWrite x id], exec i s = .next s) ∧
    ∀ c, findE T.arr id = some c →
      (∃ t, exec (.planeWrite x id) s = .next t ∧ t = s.setTile x.toNat (t.tile x.toNat) ∧
        let p := c.loadPlane.getD 0
        let lo := 65536 * p + c.prog
        (∀ k v, c.sums[k]? = some v →
          (t.tile x.toNat).cells.rd 0xC000 (lo + k) = .ofNat 16 v.2) ∧
        ∀ k, k < lo ∨ lo + c.sums.length ≤ k → (t.tile x.toNat).cells.rd 0xC000 k = T.cells.rd 0xC000 k) ∧
      (∃ t, exec (.aclrWrite x id) s = .next t ∧ t = s.setTile x.toNat (t.tile x.toNat) ∧
        ∀ e l, l < 256 → (t.tile x.toNat).accEntry e l =
          if (c.touches.getD (0, 0)).1 ≤ e ∧ e < (c.touches.getD (0, 0)).1 + (c.touches.getD (0, 0)).2 then 0 else T.accEntry e l) ∧
      (∃ t, exec (.drainWrite x id) s = .next t ∧ ∃ y z, putCells c.sysw false c.cells (s.ctx x.toNat c.hw, T) = (y, z) ∧
        t = (s.setCtx x.toNat c.hw (orFlags y (.ofNat 7 c.status))).setTile x.toNat { z with arr := dropE z.arr id }) ∧
      (lane < 256 → ∃ t, exec (.accumulatorLanding x id row pass lane) s = .next t ∧ t.ctxs = s.ctxs ∧
        (∀ y, y ≠ x.toNat → t.tile y = s.tile y) ∧
        let v := c.sums.rd 0 ((row * c.desc.p + pass) * 256 + lane)
        let T' := t.tile x.toNat
        T'.accEntry (c.desc.acc0 + row) lane = accAdd (T.accEntry (c.desc.acc0 + row) lane) (v % 2 ^ 48 : Nat) (bitAt v 48) ∧
        (∀ e l, l < 256 → (e, l) ≠ (c.desc.acc0 + row, lane) → T'.accEntry e l = T.accEntry e l) ∧
        (lane < 255 → ∃ d ∈ t.agenda, d.at_ = s.now + 1 ∧ d.ev = .accumulatorLanding x id row pass (lane + 1))) ∧
      (c.stopped = true ∨ c.desc.m ≤ row → exec (.streamRowAdmit x id row) s = .next s) ∧
      (c.stopped = false → row < c.desc.m → bitAt (c.masks[0]?.getD 0) row = false → ∃ t,
        exec (.streamRowAdmit x id row) s = .next t ∧ t.ctxs = s.ctxs ∧ (∀ e l, (t.tile x.toNat).accEntry e l = T.accEntry e l) ∧
        (row + 1 < c.desc.m → ∃ d ∈ t.agenda, d.clk = s.cmdClk x.toNat c ∧ d.at_ = c.t + (row + 1) * c.desc.p ∧
          d.ev = .streamRowAdmit x id (row + 1))) ∧
      (let D := c.desc
       let member := (s.field (s.ctx x.toNat c.hw).fieldNum).member
       let km := c.masks[1]?.getD 0
       let nm := c.masks[2]?.getD 0
       let tr : Bool := match c.ins with
         | .streamt .. => true
         | _ => false
       -- byte k of the row (R247)
       let rb (k : Nat) : Nat := (T.scratch.byte (16 * spLine member true (D.line + 8 * D.a * row + k / 16) + k % 16)).toNat
       let index (ta dep : Nat) : Nat :=
         if 2 * (ta / 2) + 1 < D.a then rb (256 * (ta / 2) + dep) / 16 ^ (ta % 2) % 16
         else rb (256 * (ta / 2) + dep / 2) / 16 ^ (dep % 2) % 16
       let bound := c.bound[0]?.getD (0, 0)
       let entry (ta dep : Nat) : Nat := ((T.bank bound.1).entry bound.2 (16 * ta + index ta dep)).toNat
       let open_ (dep j : Nat) : Bool := if tr then bitAt km j && bitAt nm dep else bitAt km dep && bitAt nm j
       -- what a cell with bits wt adds in pass q (R248, R249)
       let adds (q dep j wt : Nat) : Option (Int × Bool) :=
         let pl := D.planes[q / D.a]?.getD 0
         let e := entry (q % D.a) (if tr then j else dep)
         if open_ dep j && !bitAt wt 14 && !bitAt e 14 then
           let E : Int := asSigned 8 wt + (T.cellOff pl dep j).toInt + asSigned 8 e + D.o
           let sh : Int := E / 8 + D.q - 15
           let m : Nat := if 0 ≤ sh then fracTable (E % 8).toNat * 2 ^ sh.toNat else fracTable (E % 8).toNat / 2 ^ (-sh).toNat
           some (if bitAt wt 13 = bitAt e 13 then (m : Int) else -(m : Int), decide (32 ≤ sh))
         else none
       let listed (pl : Nat) : List (Nat × Nat × Nat) :=
         (T.cells.filter (fun z => z.1 / 65536 == pl)).map (fun z => (z.1 % 65536 / 256, z.1 % 256, z.2.toNat))
       c.stopped = false → row < D.m → bitAt (c.masks[0]?.getD 0) row = true → D.src = 0 → T.unjoined = [] → nm < 2 ^ 256 →
       (∀ pl ∈ D.planes, ∀ z ∈ listed pl, open_ z.1 z.2.1 = true → bitAt z.2.2 15 = true) →
       (∀ ta dep j, ta < D.a → dep < 256 → j < 256 → open_ dep j = true → bitAt (entry ta (if tr then j else dep)) 15 = true) →
       ∃ t c', exec (.streamRowAdmit x id row) s = .next t ∧ findE (t.tile x.toNat).arr id = some c' ∧ c'.prog = row + 1 ∧
         t.ctxs = s.ctxs ∧ (∀ e l, (t.tile x.toNat).accEntry e l = T.accEntry e l) ∧
         (∀ q l, q < D.p → l < 256 → c'.sums.rd 0 ((row * D.p + q) * 256 + l) =
           ((listed (D.planes[q / D.a]?.getD 0)).filterMap (fun z =>
             if (if tr then z.1 else z.2.1) = l then adds q z.1 z.2.1 z.2.2 else none)).foldl (fun acc p => accAdd acc p.1 p.2)
             (c.sums.rd 0 ((row * D.p + q) * 256 + l))) ∧
         (∀ q, q < D.p → ∃ d ∈ t.agenda, d.clk = none ∧ d.at_ = s.now + q + 265 ∧ d.phase = phLand ∧
           d.ev = .accumulatorLanding x id row q 0) ∧
         (row + 1 < D.m → ∃ d ∈ t.agenda, d.clk = s.cmdClk x.toNat c ∧ d.at_ = c.t + (row + 1) * D.p ∧
           d.ev = .streamRowAdmit x id (row + 1)))

/-- R239, R251: what an accumulator entry holds after a set of contributions does not depend on their order or grouping: the
sum modulo 2^48, and the range flag set by any of them. -/
def Obligations.ContributionsCommute : Prop :=
  let add (x : Nat) (p : Int × Bool) : Nat := accAdd x p.1 p.2
  (∀ (x : Nat) (l m : List (Int × Bool)), l.Perm m → l.foldl add x = m.foldl add x) ∧
  (∀ (x : Nat) (l : List (Int × Bool)), x < 2 ^ 49 → l.foldl add x = accAdd x ((l.map Prod.fst).sum) (l.any Prod.snd)) ∧
  (∀ (x : Nat) (c : Int) (r : Bool), accAdd x c r < 2 ^ 49 ∧ (2 ^ 48 : Int) ∣ (asSigned 48 (accAdd x c r) - (asSigned 48 x + c)) ∧
    bitAt (accAdd x c r) 48 = (r || bitAt x 48))

/-- R442, R453, R454: AMODE, CBLD in both forms and CBFLIP complete where their checks pass, as results that land after 4, 8 and 1
cycles; a landed flip swaps the planes and steps GEN, landed entries go to the shadow plane alone, and amode.split of a group
member changes nothing. -/
def Obligations.CodebooksAndArrayMode : Prop :=
  (∀ (g : Guard) (cb : BitVec 4) (first cnt : Byte) (v : BitVec 6) (s : State), s.cc.guard g = true →
    let waits (i : Instr) (lat : Nat) (d : Dest) : Prop := ∃ c t, exec i s = .next t ∧ t.cc = c ∧
      (∃ r ∈ c.inflight, r.dest = d ∧ r.land = s.now + lat ∧ r.slot = slA) ∧ t.tiles = s.tiles ∧ t.dies = s.dies ∧
      c = { s.cc with inflight := c.inflight, lastPc := c.lastPc }
    let base := vBase (s.cc.vreg v.toNat)
    (chkAmodeNorm g s = none → waits (.amodeNorm g) 4 (.arrayMode false)) ∧
    (s.cgrouped = true → exec (.amodeSplit g) s = .next s) ∧
    (s.cgrouped = false → chkAmodeSplit g s = none → waits (.amodeSplit g) 4 (.arrayMode true)) ∧
    (chkCbld (.cbld g cb first cnt v) g cb cnt v s = none → waits (.cbld g cb first cnt v) 8
      (.shadowEntries cb.toNat first.toNat (mod128 (regBytes s.cc s.ct base (16 * (cnt.toNat + 1)))))) ∧
    (chkCbldRestore g cb v s = none → waits (.cbldRestore g cb v) 8 (.bankImage cb.toNat (regBytes s.cc s.ct base bankBytes))) ∧
    (chkCbflip g cb s = none → waits (.cbflip g cb) 1 (.flip cb.toNat))) ∧
  ∀ (now m : Nat) (half : Bool) (b : Nat) (c : Ctx) (t : Tile) (first : Nat) (es : List (BitVec 128)),
    let f := (landDest now half m (.flip b) c t).2
    let e := (landDest now half m (.shadowEntries b first es) c t).2
    (f.bank b).act = 1 - (t.bank b).act ∧ (f.bank b).gen = ((t.bank b).gen + 1) % 256 ∧
    (f.bank b).plane0 = (t.bank b).plane0 ∧ (f.bank b).plane1 = (t.bank b).plane1 ∧ (∀ k, k ≠ b → f.bank k = t.bank k) ∧
    ((t.bank b).act ≤ 1 → let a := (t.bank b).act
      (e.bank b).plane a = (t.bank b).plane a ∧ (e.bank b).act = a ∧ (e.bank b).gen = (t.bank b).gen ∧
      ∀ k, (e.bank b).entry (1 - a) k =
        if first ≤ k ∧ k < first + es.length then es.getD (k - first) 0 else (t.bank b).entry (1 - a) k)

/-! ### The M slot: the scratchpad, memory, the stash, the mesh and the links -/

/-- R3, R272, R457, R460, R461: LDS, STS, TLD and TST of the scratchpad complete where their checks pass: a load reads the
little-endian bytes at its effective address, sign-extended or not, and its register or tile waits 12 cycles; each 16-byte line
it reads is the line as it stands, or, where a write through the swizzled view has no VJOIN after it, one that line held before,
and a tile whose views are joined draws nothing.  A store waits with exactly the bytes it writes, each bit of an element where
its address puts it unless a later element of the tile covers it; each with the post-increment its address asks for. -/
def Obligations.ScratchpadAccesses : Prop :=
  ∀ (g : Guard) (d p : BitVec 5) (v : BitVec 6) (ea : Ea) (z : BitVec 2) (sx lu : Bool) (e : BitVec 4) (fv : Option (BitVec 6))
    (s : State), s.cc.guard g = true →
    let a := s.cc.ea ea
    let n := 2 ^ z.toNat
    let s' := s.postIncr slM ea
    let at_ (k : Nat) : Nat := 393216 * s.cmember + k
    let w := s.cc.vreg v.toNat
    let ty := vType w
    let pitch := s.tilePitch v p
    let sampled (L : Nat → List Byte) (u : State) : Prop := u = { s' with draw := u.draw } ∧ (s.ct.unjoined = [] → u = s') ∧
      ∀ l, L l = s.ct.scratch.bytes (16 * l) 16 ∨ L l ∈ s.ct.staleLines s.now s.cmember false true l
    let rd (L : Nat → List Byte) (k : Nat) : Byte := (L (at_ k / 16)).getD (at_ k % 16) 0
    let bitOf (q : Nat × Nat) (t : Nat) : Nat := 8 * memAddr ty a pitch q.1 q.2 + q.2 * typeBits ty % 8 + t
    (chkLds (.lds g d ea false z sx e fv) g ea false z fv s = none → ∃ (x : W64) (L : Nat → List Byte) (u : State), sampled L u ∧
      exec (.lds g d ea false z sx e fv) s = .next (u.scalarResult 12 slM d x) ∧
      (∀ k, k < n → x.toNat / 256 ^ k % 256 = (rd L (a + k)).toNat) ∧
      (if sx then -(2 ^ (8 * n - 1) : Int) ≤ x.toInt ∧ x.toInt < 2 ^ (8 * n - 1) else x.toNat < 256 ^ n)) ∧
    (chkSts (.sts g d ea false z e fv) g ea false z fv s = none → ∃ bs : List Byte,
      exec (.sts g d ea false z e fv) s = .next (s'.result 12 phLand slM 0 (.scratch (numbered (at_ a) bs))) ∧ bs.length = n ∧
      ∀ k, k < n → (bs.getD k 0).toNat = (s.cc.sreg d.toNat).toNat / 256 ^ k % 256) ∧
    (chkTld (.tld g v ea false p e fv lu) g v ea false p fv s = none → ∃ (f : Nat → Nat → Nat) (L : Nat → List Byte) (u : State), sampled L u ∧
      exec (.tld g v ea false p e fv lu) s = .next (u.result 12 phLand slM 0 (.tile w s.cc.sysw false
        ((linesOf w (s.cc.pline.getD 0) 512).flatMap (fun q => elemCells w q.1 q.2 (f q.1 q.2))))) ∧
      ∀ q ∈ linesOf w (s.cc.pline.getD 0) 512,
        let m := memAddr ty a pitch q.1 q.2
        f q.1 q.2 = if typeBits ty < 8 then (rd L m).toNat / 2 ^ (q.2 * typeBits ty % 8) % 2 ^ typeBits ty
          else leNat ((List.range (typeBits ty / 8)).map (fun b => rd L (m + b)))) ∧
    (chkTst (.tst g v ea false p e fv) g v ea false p fv s = none → ∃ cells : List Host.Cell,
      exec (.tst g v ea false p e fv) s = .next (s'.result 12 phLand slM 0 (.scratch cells)) ∧
      (∀ k, (∃ b, (k, b) ∈ cells) ↔ ∃ q ∈ linesOf w (s.cc.pline.getD 0) 512, ∃ b, b < elemSize ty ∧
        k = at_ (memAddr ty a pitch q.1 q.2 + b)) ∧
      ∀ pre q post t, linesOf w (s.cc.pline.getD 0) 512 = pre ++ q :: post → t < typeBits ty →
        (∀ q' ∈ post, ¬(bitOf q' 0 ≤ bitOf q t ∧ bitOf q t < bitOf q' 0 + typeBits ty)) →
        ∀ b, (at_ (bitOf q t / 8), b) ∈ cells → b.getLsbD (bitOf q t % 8) = ((readTile s.cc s.ct w).elem q.1 q.2).testBit t)

/-- What accepting an asynchronous command leaves: the command stands last in the list of commands under a number of its own,
with its event; the event that carries it on is due at some later cycle; the tiles, the dies and the fields are as they were. -/
def Accepted (s : State) (i : Instr) (e : Option Nat) (ev : Nat → Instr) : Prop :=
  ∃ t c, exec i s = .next t ∧ t.cmds = s.cmds ++ [c] ∧ c.ins = i ∧ c.ev = e ∧ c.field = s.cf ∧ c.tile = s.cur.tile ∧ c.hw = s.cur.hw ∧
    c.pc = s.cur.pc ∧ s.nextId ≤ c.id ∧ c.id < t.nextId ∧ (∃ d ∈ t.agenda, s.now < d.at_ ∧ d.ev = ev c.id) ∧
    t.tiles = s.tiles ∧ t.dies = s.dies ∧ t.fields = s.fields ∧ t.cur = s.cur

/-- R284, R294, R309, R355, R363, R443, R452, R455, R459 to R469, R479, R480, R482 to R486: an asynchronous command whose
checks pass is accepted whole at its issue and goes on by itself: accesses to global memory, atomics, hints, fences, TLBINV,
copies, WSTORE and CBST. -/
def Obligations.AsynchronousCommandsAreAccepted : Prop :=
  ∀ (g : Guard) (d p r gs n x y dr : BitVec 5) (v : BitVec 6) (ea : Ea) (z : BitVec 2) (sx lu pl z8 ui : Bool) (e cb opc : BitVec 4)
    (h ssp dsp : BitVec 2) (op3 : BitVec 3) (s1 s2 : BitVec 5) (cnt : Byte) (he : Option (BitVec 4)) (fv : Option (BitVec 6)) (s : State),
    s.cc.guard g = true →
    let ev : Option Nat := some e.toNat
    let load : Nat → Instr := fun id => .globalLoadComplete id []
    let store : Nat → Instr := .homeSliceStoreAccept
    (chkLds (.lds g d ea true z sx e fv) g ea true z fv s = none → Accepted s (.lds g d ea true z sx e fv) ev load) ∧
    (chkSts (.sts g d ea true z e fv) g ea true z fv s = none → Accepted s (.sts g d ea true z e fv) ev store) ∧
    (chkTld (.tld g v ea true p e fv lu) g v ea true p fv s = none → Accepted s (.tld g v ea true p e fv lu) ev load) ∧
    (chkTst (.tst g v ea true p e fv) g v ea true p fv s = none → Accepted s (.tst g v ea true p e fv) ev store) ∧
    (chkAtom (.atom g d ea z8 opc s1 s2 e fv) g ea z8 fv s = none →
      Accepted s (.atom g d ea z8 opc s1 s2 e fv) ev (fun id => .atomicArrive id [])) ∧
    (chkAtomt (.atomt g v ea p op3 e fv) g v ea p op3 fv s = none →
      Accepted s (.atomt g v ea p op3 e fv) ev (fun id => .atomicArrive id [])) ∧
    (∀ i ∈ [Instr.hintReq g ea cnt he, .hintFill g ea cnt he, .hintDrop g ea cnt he, .hintL2 g ea cnt he],
      i.wf = true → Accepted s i (he.map (·.toNat)) (fun id => .hintComplete ⟨id, []⟩)) ∧
    (chkFence (.fence g x y e) s = none → Accepted s (.fence g x y e) ev .fenceComplete) ∧
    (chkTlbinv g gs n s = none → Accepted s (.tlbinv g gs n e) ev .tlbInvalidateDone) ∧
    (chkTlbinvDie g gs s = none → Accepted s (.tlbinvDie g gs e) ev .tlbInvalidateDone) ∧
    (chkCpy g dr ssp dsp s = none → Accepted s (.cpy g dr ssp dsp e ui d) ev (fun id => .cpyComplete id [])) ∧
    (chkCpyz g v dr true s = none → Accepted s (.cpyzSt g v dr r e ui d) ev (fun id => .cpyzComplete id [])) ∧
    (chkCpyz g v dr false s = none → Accepted s (.cpyzLd g v dr r e ui d) ev (fun id => .cpyzComplete id [])) ∧
    (chkWstore g v r s = none → Accepted s (.wstore g v r e) ev .wstoreComplete) ∧
    (chkWstorePlane g v pl s = none → Accepted s (.wstorePlane g v h pl e) ev .wstoreComplete) ∧
    (chkCbst g cb v s = none → Accepted s (.cbst g cb v e) ev .cbstComplete)

/-- R482 to R486: CSAVE and CLOAD of a tile record, a block and a code segment, and CLOAD of a context, are accepted in the
service that may use them; a CSAVE of a context takes the context as it stands at issue, its completion is due later, and the
window it reads is awake after it: one that was drowsy wakes, to turn drowsy again 2,000,000 cycles on (R336).
That CSAVE takes the context as it stands at issue (log entry 106), and the 2,000,000 cycles counted from the CSAVE (log entry 54),
are the model's own readings. -/
def Obligations.ImageCommandsAreAccepted : Prop :=
  ∀ (g : Guard) (c : BitVec 2) (gs dr : BitVec 5) (e : BitVec 4) (s : State), s.cc.guard g = true →
    let ev : Option Nat := some e.toNat
    let load : Nat → Instr := fun id => .cloadComplete ⟨id, []⟩
    (chkImage g 0x15 none gs s = none → Accepted s (.csaveTile g gs e) ev .csaveComplete ∧ Accepted s (.csaveCode g gs e) ev .csaveComplete) ∧
    (chkBlk g 0x15 gs dr s = none → Accepted s (.csaveBlk g gs dr e) ev .csaveComplete) ∧
    (chkImage g 0x16 none gs s = none → Accepted s (.cloadTile g gs e) ev load ∧ Accepted s (.cloadCode g gs e) ev load) ∧
    (chkImage g 0x16 (some c) gs s = none → Accepted s (.cloadCtx g c gs e) ev load) ∧
    (chkBlk g 0x16 gs dr s = none → Accepted s (.cloadBlk g gs dr e) ev load) ∧
    (chkImage g 0x15 (some c) gs s = none → ∃ t k, exec (.csaveCtx g c gs e) s = .next t ∧ t.cmds = s.cmds ++ [k] ∧
      k.ins = .csaveCtx g c gs e ∧ k.ev = ev ∧ k.pitch = contextBytes ∧
      k.bytes = (s.standing (s.placeOfHw c)).toImage ∧ (∃ d ∈ t.agenda, s.now < d.at_ ∧ d.ev = .csaveComplete k.id) ∧
      t.dies = s.dies ∧ t.fields = s.fields ∧ (t.ctx s.cur.tile c.toNat).drowsy = false ∧
      ((s.ctx s.cur.tile c.toNat).drowsy = true →
        ∃ d ∈ t.agenda, d.ev = .windowDrowsy (.ofNat 8 s.cur.tile) c ∧ d.at_ = s.now + 2000000))

/-- R273, R465, R479: STASH puts a map into force at issue + 1, whose lines are SLINE on, of 2^SSZ lines, under the domain that
the named slot holds; stash.off clears an enabled map and leaves a disabled one; VJOIN orders what was written before it and
changes no byte of the scratchpad; R37, R96: BCALL sends its call, or reports a withdrawn pseudo-channel. -/
def Obligations.StashVjoinAndBcall : Prop :=
  ∀ (g : Guard) (k : BitVec 2) (ssz gsz : BitVec 4) (ds : BitVec 3) (gs c a : BitVec 5) (sline : BitVec 13) (e : BitVec 4) (s : State),
    s.cc.guard g = true →
    let was := (s.cc.map k.toNat).en
    (chkStash g k ssz gsz ds gs sline s = none → ∃ t m, exec (.stash g k ssz gsz ds gs sline) s = .next t ∧
      (∃ r ∈ t.cc.inflight, r.dest = .stmap k.toNat m ∧ r.land = s.now + 1 ∧ r.slot = slM) ∧
      (stMap m).sline = sline.toNat ∧ (stMap m).ssz = ssz.toNat ∧ (stMap m).gsz = gsz.toNat ∧ (stMap m).en = true ∧
      (stMap m).level = (s.cc.dslot ds.toNat).toNat % 8 ∧ (stMap m).gbase = (s.cc.sreg gs.toNat).toNat ∧
      (was = false → t = s.result 1 phLand slM 0 (.stmap k.toNat m))) ∧
    (was = false → exec (.stashOff g k) s = .next s) ∧
    (was = true → ∃ t, exec (.stashOff g k) s = .next t ∧
      ∃ r ∈ t.cc.inflight, r.dest = .stmap k.toNat 0 ∧ r.land = s.now + 1) ∧
    (∃ t, exec (.vjoin g) s = .next t ∧ t = s.setTile s.cur.tile t.ct ∧ t.ct.scratch = s.ct.scratch ∧
      t.ct.joinAt.rd 0 s.cmember = s.now) ∧
    (chkBcall (.bcall g c a e) g c s = none →
      let w := callWord (s.cc.sreg c.toNat)
      let args := (List.range 6).map (fun k => s.cc.sreg (a.toNat + k))
      ((s.seqr w.pch).withdrawn = false → ∃ t q, exec (.bcall g c a e) s = .next t ∧ t.calls = s.calls ++ [q] ∧ q.pch = w.pch ∧
        q.entry = w.entry ∧ q.stream = w.stream ∧ q.seq = w.seq ∧ q.args = args ∧ q.ev = e.toNat ∧ t.ctxs = s.ctxs ∧
        ∃ d ∈ t.agenda, s.now < d.at_ ∧ d.ev = .bcallArrive q.id) ∧
      ((s.seqr w.pch).withdrawn = true → exec (.bcall g c a e) s = .next (s.modCC (fun x =>
        x.report s.now s.nextId (some s.cur.pc) ⟨11, 5, slM, (s.cc.sreg a.toNat).toNat, 0⟩)))) 

/-- R60 to R64, R206, R471 to R477: MSEND, MRECV and the link commands are accepted with their start cycle where their checks
pass; a link command completes at its fixed cycle and pays its class-L charge (R26, R30), a mesh command pays none. -/
def Obligations.MeshAndLinkCommandsAreAccepted : Prop :=
  ∀ (g : Guard) (port : BitVec 2) (pay : MeshPay) (dr d : BitVec 5) (e : BitVec 4) (tm : Timing) (s : State), s.cc.guard g = true →
    let t0 := (s.estart tm).toNat
    let self : BitVec 8 := .ofNat 8 s.cur.tile
    let link (k : LinkKind) (i : Instr) : Prop := ∃ t c, exec i s = .next t ∧
      let f := s.linkDone k (linkD (s.descBytesAt (s.descBase dr) 48)) t0
      Engaged s t i c Tile.link t0 (.linkTransferStart self s.nextId) ∧
      Engaged s t i c Tile.link f (linkEnd k self s.nextId) ∧ c.last = f ∧
      t.col = (s.payPower s.cf 2 (s.chargesL k (linkD (s.descBytesAt (s.descBase dr) 48)) t0)).col
    let mesh (i : Instr) (send : Bool) : Prop := ∃ t c, exec i s = .next t ∧
      Engaged s t i c Tile.mesh t0 (.engineStart self .mesh s.nextId) ∧
      c.slots = [⟨send, port.toNat, t0, beatsOf (s.meshBytes pay)⟩] ∧ t.col = s.col
    (chkMsend g port pay tm s = none → mesh (.msend g port pay tm) true) ∧
    (chkMrecv g port pay tm s = none → mesh (.mrecv g port pay tm) false) ∧
    (chkLsend g dr tm s = none → link .send (.lsend g dr d e tm)) ∧
    (chkLrecv g dr tm s = none → link .recv (.lrecv g dr d e tm)) ∧
    (chkLred g dr tm s = none → link .red (.lred g dr d e tm)) ∧
    (chkLbcst g dr tm s = none → link .bcst (.lbcst g dr d e tm))

/-! ### What carries accepted commands on -/

/-- R204, R355, R363: a command that completes is gone, and counts one completion on the event register it named, of the context
that issued it, wherever its field is placed; no other register of a context changes, and a command that named none counts
nothing. -/
def Obligations.CompletionCountsItsEvent : Prop :=
  ∀ (s : State) (c : Cmd),
    let t := s.complete c
    (∀ x ∈ t.cmds, x.id ≠ c.id ∧ x ∈ s.cmds) ∧ (∀ x ∈ s.cmds, x.id ≠ c.id → x ∈ t.cmds) ∧ t.dies = s.dies ∧
    (c.ev = none → t = s.dropCmd c.id) ∧
    ∀ e, c.ev = some e → c.svc = false → s.live c.field = true → s.saved.find c.field = none →
      let p := (s.field c.field).locate c.rel
      t.ctx p.1 p.2 = (s.ctx p.1 p.2).count e 1 ∧
      ((s.ctx p.1 p.2).count e 1).ereg e = (s.ctx p.1 p.2).ereg e - 1 ∧
      (∀ k, k ≠ e → ((s.ctx p.1 p.2).count e 1).ereg k = (s.ctx p.1 p.2).ereg k) ∧
      (∀ x h, 4 * x + h ≠ 4 * p.1 + p.2 → t.ctx x h = s.ctx x h) ∧ ∀ x, t.tile x = s.tile x

/-- R295, R305, R308, R311, R315, R452, R455, R463, R464, R466, R468, R469, R480, R484: the events that carry asynchronous commands
on.  Of a command that is gone each changes nothing; where the last of a command's work is at hand it is done, and the
command completes; an access that its protection forbids is dropped, and reports PROT 0x03 instead; a FENCE that names HBM4 waits while a
session holds a channel that a captured write still has to reach (R98, R315), and else drains the captured writes to it. -/
def Obligations.AsynchronousEventsComplete : Prop :=
  ∀ (id : Nat) (remote : Table Byte) (s : State),
    (s.cmd id = none → ∀ i ∈ [Instr.wstoreComplete id, .cbstComplete id, .globalLoadComplete id remote, .homeSliceStoreAccept id,
      .protViolationReport id, .atomicArrive id remote, .atomicComplete id, .hintComplete ⟨id, remote⟩, .fenceComplete id, .tlbInvalidateDone id,
      .cpyComplete id remote, .cpyzComplete id remote, .csaveComplete id, .cloadComplete ⟨id, remote⟩], exec i s = .next s) ∧
    ∀ c, s.cmd id = some c →
      let s' := s.drawFree.2
      let unit := ∃ u, c.cells ≠ [] ∧ ∀ m ∈ c.cells, m.addr / 16 = u
      (∀ g v r e, c.ins = .wstore g v r e → unit → (∀ m ∈ c.cells, s.weightClash c m = false) →
        exec (.wstoreComplete id) s = .next ((s'.putWeight c.field c.rel c.cells).complete c)) ∧
      (∀ g v h pl e, c.ins = .wstorePlane g v h pl e → unit → exec (.wstoreComplete id) s = .next ((s'.putRegs c c.cells).complete c)) ∧
      (unit → exec (.cbstComplete id) s = .next ((s'.putRegs c c.cells).complete c)) ∧
      (c.isLoad = true → c.viol = none → let r := s.fire c remote
        r.1.viol = none → r.1.wait = [] → exec (.globalLoadComplete id remote) s = .next ((r.2.finishAccess r.1).complete r.1)) ∧
      (c.isWriteBack = true → exec (.homeSliceStoreAccept id) s = .next (s.stepWriteBack c)) ∧
      (c.isStore = true → c.isWriteBack = false → c.viol = none → let r := s.fire c []
        (r.1.viol = none → r.1.wait = [] → exec (.homeSliceStoreAccept id) s = .next ((r.2.finishAccess r.1).complete r.1)) ∧
        (r.1.viol.isSome = true → exec (.homeSliceStoreAccept id) s =
          .next ((r.2.putCmd r.1).at none r.2.now phLand (.protViolationReport r.1.id)))) ∧
      (∀ a, c.viol = some a → exec (.protViolationReport id) s =
        .next ((s.dropCmd id).modCmd c (fun x => x.report s.now c.seq (some c.pc) ⟨6, 3, slM, a, 0⟩))) ∧
      (∀ x c' u, c.isAtomic = true → c.viol = none → c.made = true → c.wait = [x.line] → c.xl = [x] → x.remote = false →
        s'.blocked c x.line = false → s'.applyAtomic c x remote = some (c', u) → c'.wait = c.wait →
        exec (.atomicArrive id remote) s = .next ((u.putCmd { c' with wait := [] }).later c'.seq 0 (.atomicComplete id))) ∧
      (∀ g d ea z opc s1 s2 e fv, c.ins = .atom g d ea z opc s1 s2 e fv → c.made = true → c.wait = [] →
        exec (.atomicComplete id) s = .next (((s.modCmd c (fun x => x.putS c.set d.toNat (c.vals[2]?.getD 0))).putAccess c
          (c.flagWrite fv none)).complete c)) ∧
      (∀ g v ea p opc e fv, c.ins = .atomt g v ea p opc e fv → c.made = true → c.wait = [] →
        exec (.atomicComplete id) s = .next ((s.putAccess c (c.flagWrite fv (some (c.views.headD 0)))).complete c)) ∧
      (c.isHint = true → c.wait = [] → (∀ w ∈ c.fset, s.cmd w = none) →
        exec (.hintComplete ⟨id, remote⟩) s = .next ((s'.putCmd c).complete c)) ∧
      (∀ g x y e, c.ins = .fence g x y e → (∀ w ∈ c.fset, s.cmd w = none) → c.flags = [] → hasC y = false → hasC x = false →
        ((hasB y = true → s.fenceHeld c x = false) →
          exec (.fenceComplete id) s = .next ((if hasB y then s.drainDies (c.fenced x) else s).complete c)) ∧
        (hasB y = true → s.fenceHeld c x = true →
          exec (.fenceComplete id) s = .next ((s.putCmd c).later c.seq 1 (.fenceComplete id)))) ∧
      (∃ t : State, exec (.tlbInvalidateDone id) s = .next (t.complete c) ∧ t.ctxs = s.ctxs ∧
        (vPkg c.addr = s.pkgNum → ∀ e ∈ (t.die (vDie c.addr)).tlb, e ∈ (s.die (vDie c.addr)).tlb ∧
          e.inRange (vOff c.addr / 65536) c.prog = false)) ∧
      (∀ g dr ssp dsp e ui d, c.ins = .cpy g dr ssp dsp e ui d → c.shape.total ≤ 128 * c.prog →
        exec (.cpyComplete id remote) s = .next (s.finishCopy c d ui)) ∧
      (∀ g v dr r e ui d, c.ins = .cpyzSt g v dr r e ui d → 0 < c.prog → c.writeSteps ≤ c.prog →
        exec (.cpyzComplete id remote) s = .next (s.finishCopy c d ui)) ∧
      (∀ g v dr r e ui d, c.ins = .cpyzLd g v dr r e ui d → 0 < c.prog → c.readUnits.getD 0 < c.prog →
        exec (.cpyzComplete id remote) s = .next (s.zFinishRead c d ui)) ∧
      (c.pitch ≤ 128 * c.prog → exec (.csaveComplete id) s = .next (s.saved_ c) ∧
        exec (.cloadComplete ⟨id, remote⟩) s = .next (let u := s.refreshFor c; u.loadedImage ((u.cmd id).getD c)))

/-- R60, R62, R64, R206, R471, R472, R474: what an engine's start and its later events do: a DRAIN samples at T; a sender's beat b
is due at T + b and a receiver's at T' + b + 3; a beat sent stands at the neighbour a hop time later; a beat that arrived at T' + b
is written through its view, or to its lines of the swizzled scratchpad and to no other byte of it, and one that did not leaves its
bytes; a link command ends with its completion word and its event, and its place in the engine is free when the guard intervals
of its flits have ended.
That a completed link command keeps its place until its guard intervals have ended is the model's own reading of R62 and R208 (log
entry 56). -/
def Obligations.MeshAndLinkEvents : Prop :=
  ∀ (x : BitVec 8) (id beat : Nat) (s : State),
    let T := s.tile x.toNat
    (findE T.arr id = none → exec (.engineStart x .array id) s = .next s) ∧
    (findE T.mesh id = none → ∀ i ∈ [Instr.engineStart x .mesh id, .meshBeatSend x id beat, .meshBeatReceive x id beat], exec i s = .next s) ∧
    (findE T.link id = none → ∀ i ∈ [Instr.engineStart x .link id, .linkTransferStart x id, .lsendComplete x id, .lrecvComplete x id,
      .lredComplete x id, .lbcstComplete x id], exec i s = .next s) ∧
    (∀ c g d e0 l0 q cv sc turn sat tm, findE T.arr id = some c → c.ins = .drain g d e0 l0 q cv sc turn sat tm →
      ∃ t, exec (.engineStart x .array id) s = .next t ∧ t.ctxs = s.ctxs ∧ (t.tile x.toNat).acc = T.acc ∧
        (let r := drainSample T (c.views.headD 0) e0.toNat (16 * l0.toNat) q.toNat cv.toNat sc.toNat turn sat c.dclk
          ∃ c' ∈ (t.tile x.toNat).arr, c'.id = c.id ∧ c'.cells = r.1 ∧ c'.status = r.2.toNat)) ∧
    (∀ c, findE T.mesh id = some c → ∃ t, exec (.engineStart x .mesh id) s = .next t ∧ t.ctxs = s.ctxs ∧
      (c.meshPort.1 = true → ∃ d ∈ t.agenda, d.at_ = c.t + c.prog ∧ d.ev = .meshBeatSend x id c.prog) ∧
      (c.meshPort.1 = false → ∃ d ∈ t.agenda, d.at_ = c.t + c.prog + 3 ∧ d.ev = .meshBeatReceive x id c.prog)) ∧
    (∀ c, findE T.mesh id = some c → c.meshPort.1 = true → beat < beatsOf c.meshLen → ∃ t, exec (.meshBeatSend x id beat) s = .next t ∧
      t.ctxs = s.ctxs ∧ (∀ nb, neighbour x.toNat c.meshPort.2 = some nb → ∃ b ∈ (t.tile nb).beats,
        b.field = (s.ctx x.toNat c.hw).fieldNum ∧ b.port = oppositePort c.meshPort.2 ∧
        b.at_ = s.cmdNow x.toNat c + hopCycles x.toNat nb ∧ b.bytes = (s.beatBytes x.toNat c beat).1) ∧
      (beat + 1 < beatsOf c.meshLen → ∃ d ∈ t.agenda, d.at_ = c.t + beat + 1 ∧ d.ev = .meshBeatSend x id (beat + 1))) ∧
    (∀ c, findE T.mesh id = some c → c.meshPort.1 = false → beat < beatsOf c.meshLen → ∃ t, exec (.meshBeatReceive x id beat) s = .next t ∧
      let got := T.beats.find? (fun b => b.field == (s.ctx x.toNat c.hw).fieldNum && b.port == c.meshPort.2 && b.at_ == c.t + beat)
      (got = none → t.ctxs = s.ctxs ∧ (t.tile x.toNat).scratch = T.scratch) ∧
      (∀ b, got = some b → let bs := b.bytes.take (c.meshLen - 128 * beat)
        (∀ v vs, c.views = v :: vs → let r := putCells c.sysw false (beatCells v beat bs) (s.ctx x.toNat c.hw, T)
          t.ctx x.toNat c.hw = r.1 ∧ t.tile x.toNat = { r.2 with mesh := (t.tile x.toNat).mesh }) ∧
        (c.views = [] → t.ctxs = s.ctxs ∧
          let cell (k : Nat) : Nat :=
            16 * spLine (s.memberOf x.toNat c.hw) true ((lineField (c.vals.headD 0)).1 + 8 * beat + k / 16) + k % 16
          (∀ k, k < bs.length → (t.tile x.toNat).scratch.byte (cell k) = bs.getD k 0) ∧
          ∀ a, (∀ k, k < bs.length → a ≠ cell k) → (t.tile x.toNat).scratch.byte a = T.scratch.byte a)) ∧
      (beat + 1 < beatsOf c.meshLen → ∃ d ∈ t.agenda, d.at_ = c.t + beat + 4 ∧ d.ev = .meshBeatReceive x id (beat + 1))) ∧
    ∀ c, findE T.link id = some c →
      let ended (t : State) (d : BitVec 5) (e : BitVec 4) (cmap lost status : Nat) : Prop :=
        (t.ctx x.toNat c.hw).ereg e.toNat = (s.ctx x.toNat c.hw).ereg e.toNat - 1 ∧
        (t.ctx x.toNat c.hw).lkstat = (s.ctx x.toNat c.hw).lkstat ||| .ofNat 32 status ∧
        (d ≠ 0 → ((t.ctx x.toNat c.hw).file c.set).s.rd 0 d.toNat = .ofNat 64 (cmap + 2 ^ 32 * min lost 0xFFFF + 2 ^ 48 * status))
      let gone (t : State) : Prop := ∀ y ∈ (t.tile x.toNat).link, y.id ≠ id
      let freed := maxNat (c.slots.map (fun y => y.start + y.n)) + 8
      let leaves (t : State) (ev : Instr) : Prop := (freed ≤ s.cmdNow x.toNat c → gone t) ∧
        (s.cmdNow x.toNat c < freed → (∃ c', findE (t.tile x.toNat).link id = some c' ∧ c'.stopped = true) ∧
          ∃ q ∈ t.agenda, q.clk = s.cmdClk x.toNat c ∧ q.at_ = freed ∧ q.ev = ev)
      let gives (ev : Instr) (d : BitVec 5) (e : BitVec 4) (cmap lost status : Nat) : Prop :=
        (c.stopped = false → ∃ t, exec ev s = .next t ∧ ended t d e cmap lost status ∧ leaves t ev) ∧
        (c.stopped = true → ∃ t, exec ev s = .next t ∧ t.ctxs = s.ctxs ∧ (freed ≤ s.cmdNow x.toNat c → gone t))
      (c.started = false → ∀ i ∈ [Instr.engineStart x .link id, .linkTransferStart x id], ∃ t c', exec i s = .next t ∧
        findE (t.tile x.toNat).link id = some c' ∧ c'.started = true) ∧
      (∀ g dr d e tm, c.ins = .lsend g dr d e tm → gives (.lsendComplete x id) d e 0 0 0) ∧
      (∀ g dr d e tm, c.ins = .lrecv g dr d e tm → let hdr := c.linkD.chunk && c.got 0 && !headerOk (c.flit 0) c.linkD
        gives (.lrecvComplete x id) d e 0 c.lostN (if hdr then 8 else 0)) ∧
      (∀ g dr d e tm, c.ins = .lred g dr d e tm →
        gives (.lredComplete x id) d e (c.hop c.linkD).2.1 c.lostN (c.hop c.linkD).2.2) ∧
      (∀ g dr d e tm, c.ins = .lbcst g dr d e tm → gives (.lbcstComplete x id) d e 0
        (if c.linkD.isRoot s then 0 else ((List.range (c.linkD.flits .bcst)).filter (fun k => !c.got k)).length) 0)

/-! ### The package -/

/-- R39, R108, R112, R113, R136, R137: what the resets keep and clear, and the stages of bring-up.  A loss of power loses the
increments not committed, and nothing runs; a power-on reset begins bring-up at stage 0 and counts itself; a reset by register
or by function keeps the increments as they are.  Committed counters, map entries and DEV_COMMITSVN's number survive all of
them.  The outcome of a check is what the image, or the test, is found to be. -/
def Obligations.ResetsAndBringUp : Prop :=
  ∀ (fs : List Finding) (fw : FwSupply) (s : State),
    (∀ i ∈ [Instr.powerLoss, .powerOnReset, .devReset, .functionLevelReset], ∃ t, exec i s = .next t ∧ t.now = s.now ∧
      t.sb.counters = s.sb.counters ∧ t.sb.map = s.sb.map ∧ t.hport.minSvn = s.hport.minSvn ∧ t.hport.fwStore = s.hport.fwStore ∧
      (t = s ∨ (t.fields = [] ∧ t.ctxs = [] ∧ t.tiles = [] ∧ t.cmds = [] ∧ t.hport.stage = 0 ∧ t.col.grants = [] ∧
        t.pkg.ready = false ∧ t.torus.timed = false))) ∧
    (∃ t, exec .powerLoss s = .next t ∧ t.sb.shadow = [] ∧ t.pkg.powered = false ∧ t.agenda = []) ∧
    (∃ t, exec .powerOnReset s = .next t ∧ t.pkg.powered = true ∧ t.sb.shadow = [(1, 1)] ∧
      t.sb.value 1 = min (2 ^ 64 - 1) ((s.sb.counters.rd 0 1).toNat + 1)) ∧
    (s.pkg.powered = true → ∃ t, exec .functionLevelReset s = .next t ∧ t.sb.shadow = s.sb.shadow ∧ t.pkg.powered = true ∧
      t.hport.stage = 0 ∧ t.fields = []) ∧
    exec .devReset s = .next (if s.bar0Open then s.deviceReset else s) ∧
    (s.bar0Open = true → s.hport.shutdown = false →
      ∃ t, exec .devCommitsvn s = .next t ∧ t.hport.minSvn = max s.hport.minSvn s.hport.svn ∧ t.sb = s.sb ∧ t.ctxs = s.ctxs) ∧
    (s.pkg.powered = true → s.hport.stage = 0 → ∃ t, exec .bootImageCheck s = .next t ∧ t.hport.stage = 1 ∧
      ∃ d ∈ t.agenda, d.ev = .bootImageCheck ∧ s.now < d.at_ ∧ d.at_ ≤ s.now + 100000000) ∧
    (s.pkg.powered = true → s.hport.stage = 1 → ∃ t, exec .bootImageCheck s = .next t ∧
      let r := imageResult s.hport.minSvn 0 s.hport.fwStore.length s.hport.fwStore
      (r ≠ 0 → t.hport.stage = 15 ∧ t.hport.errcode = r) ∧
      (r = 0 → t.hport.stage = 2 ∧ s.hport.minSvn ≤ numAt s.hport.fwStore 6 2 ∧ t.hport.svn = s.hport.svn)) ∧
    (s.pkg.powered = true → s.hport.stage = 2 → ∃ t, exec (.selfTest fs) s = .next t ∧
      (fs.any Finding.fatal = true → t.hport.stage = 15 ∧ t.hport.errcode = 4) ∧
      (fs.any Finding.fatal = false → t.hport.stage = 3 ∧ t.hport.errcode = s.hport.errcode)) ∧
    (s.pkg.powered = true → s.hport.stage = 3 → ∃ t, exec (.bringupConfig fw) s = .next t ∧ t.hport.stage = 4 ∧
      t.hport.svn = numAt s.hport.fwStore 6 2 ∧ t.col.budget = 2400 ∧ t.ctxs = s.ctxs)

/-- R18, R19, R20, R34, R40: the package temperature is the highest of its 18 sensors, sampled again after 2,000,000 cycles; one that
reaches 100 °C sets THWARN, counts on counter 0x070 and halves the budget until it falls below 95 °C, and one that reaches 110 °C
sets THTRIP and counts on 0x071, and no other sample counts on either; supply warnings, supply failures and errors are counted,
each on its own counter; an array row or column that fails in use is withheld, and a second error in one structure of a tile within
one hour retires the tile. -/
def Obligations.TemperatureAndErrors : Prop :=
  ∀ (die : BitVec 2) (e : ErrSite) (k : Nat) (pch : BitVec 9) (bank : BitVec 4) (changed : List (Nat × Int)) (s : State),
    (s.pkg.powered = false → ∀ i ∈ [Instr.tempSample changed, .droopWarning die, .droopFailure die, .uncorrectableError e, .correctedError k pch bank],
      exec i s = .next s) ∧
    (s.pkg.powered = true →
      (∃ t, exec (.tempSample changed) s = .next t ∧
        let p := s.pkg.withSensors changed
        let deg := p.hottest
        let count (i : Nat) (up : Prop) : Prop :=
          (up → (t.sb.shadow.rd 0 i).toNat = min (2 ^ 64 - 1) ((s.sb.shadow.rd 0 i).toNat + 1)) ∧
          (¬up → t.sb.shadow.rd 0 i = s.sb.shadow.rd 0 i)
        t.pkg.temp = deg ∧ (∀ k, k < 18 → p.sensors.rd 0 k ≤ deg) ∧ (∃ k, k < 18 ∧ p.sensors.rd 0 k = deg) ∧
        (∃ d ∈ t.agenda, d.ev = .tempSample [] ∧ d.at_ = s.now + 2000000) ∧
        count 0x070 (s.pkg.temp < 100 ∧ 100 ≤ deg) ∧ count 0x071 (s.pkg.temp < 110 ∧ 110 ≤ deg) ∧
        (100 ≤ deg → s.pkg.temp < 100 → t.pkg.thwarn = true ∧ t.col.halved = true ∧ t.col.force = t.col.budget / 2) ∧
        (110 ≤ deg → s.pkg.temp < 110 → t.pkg.thtrip = true) ∧
        (deg < 95 → t.col.halved = false ∧ t.pkg.thtrip = false ∧ t.col.force = t.col.budget) ∧
        (95 ≤ deg → deg < 100 → t.col.halved = s.col.halved ∧ t.pkg.thtrip = s.pkg.thtrip)) ∧
      (∃ t, exec (.droopWarning die) s = .next t ∧ t.pkg.droop = true ∧ t.ctxs = s.ctxs ∧ t.tiles = s.tiles ∧
        (t.sb.shadow.rd 0 0x40).toNat = min (2 ^ 64 - 1) ((s.sb.shadow.rd 0 0x40).toNat + 1)) ∧
      (∃ t, exec (.droopFailure die) s = .next t ∧ t.pkg.droop = true ∧
        (t.sb.shadow.rd 0 0x41).toNat = min (2 ^ 64 - 1) ((s.sb.shadow.rd 0 0x41).toNat + 1)) ∧
      (k ≤ 10 → ∃ t, exec (.correctedError k pch bank) s = .next t ∧ t.ctxs = s.ctxs ∧ (k ≠ 8 → t.pkg = s.pkg) ∧
        (t.sb.shadow.rd 0 (0x20 + k)).toNat = min (2 ^ 64 - 1) ((s.sb.shadow.rd 0 (0x20 + k)).toNat + 1)) ∧
      (e.cls = 1 → s.fieldsOn (· == e.tile.toNat) = [] → ∃ t, exec (.uncorrectableError e) s = .next t ∧ t.ctxs = s.ctxs ∧
        (if e.line.1 then e.line.2 ∈ (t.tile e.tile.toNat).badCols else e.line.2 ∈ (t.tile e.tile.toNat).badRows)) ∧
      (2 ≤ e.cls.toNat → e.cls.toNat ≤ 6 → s.fieldsOn (· == e.tile.toNat) = [] → ∃ t, exec (.uncorrectableError e) s = .next t ∧
        let key := e.cls.toNat + 16 * b2n e.code
        t.ctxs = s.ctxs ∧ t.pkg.errs = (key, e.tile.toNat, s.now) :: s.pkg.errs ∧
        ((s.pkg.errs.any fun x => x.1 == key && x.2.1 == e.tile.toNat && decide (s.now < x.2.2 + hourCycles)) = true →
          (t.tile e.tile.toNat).retired = true)))

/-- R28, R31, R32, R39, R40, R41, R44, R45, R113, R490: the Col's budget and windows, the Scorebook's commit, second, reading and
snapshot, and an orderly shutdown.  A window that begins charges an open session 2 units of its field's class-B grants, or, where
they fall short, the unreserved budget from then on, with OVRUN set; and the grants that no request may still test lapse.  The model's
own choices are that a grant is forgotten after 400 windows, that commits are 60 s apart exactly (log entry 67), that a snapshot captures
the cycle of the SNAP write (log entry 99), and what a register or a snapshot shows of an FW field before stage 3 (log entry 94). -/
def Obligations.ColScorebookAndShutdown : Prop :=
  ∀ (v : W32) (s : State),
    (s.bar0Writes = true → ∃ t, exec (.colBudgetWrite v) s = .next t ∧ t.col.budget = min 2400 (v.toNat % 4096) ∧ t.col.grants = s.col.grants ∧
      t.ctxs = s.ctxs ∧ t.sb = s.sb) ∧
    (s.torus.timed = true → ∃ t, exec .colWindowStart s = .next t ∧ t.ctxs = s.ctxs ∧
      (∃ d ∈ t.agenda, d.ev = .colWindowStart ∧ d.at_ = s.now + 2000) ∧
      let w := windowOf s.global
      let lapse (c : Col) : Col := { c with grants := c.grants.filter (fun g => decide (w ≤ g.last + 400)) }
      ((∀ e ∈ s.seqrs, e.2.session = none) → t.col = lapse s.col ∧ t.seqrs = s.seqrs) ∧
      ∀ p q y, s.seqrs = [(p, q)] → q.session = some y →
        (y.excess = true → t.col = lapse { s.col with spent := (w, 2) :: s.col.spent }) ∧
        (y.excess = false →
          (∀ c, s.col.charge s.now y.field 1 w 2 = .ok c → t.col = lapse c ∧ t.seqrs = s.seqrs) ∧
          (∀ e, s.col.charge s.now y.field 1 w 2 = .error e → t.col.ovrun = true ∧ y.field ∈ t.col.overran ∧
            t.col.spent = (w, 2) :: s.col.spent ∧ (t.seqr p).session = some { y with excess := true }))) ∧
    (s.pkg.powered = true → s.sb.shadow.wf 0 = true →
      s.sb.counters.wf 0 = true → ∃ t, exec .scorebookCommit s = .next t ∧ t.sb.shadow = [] ∧
      (∀ i, t.sb.value i = s.sb.value i) ∧ (∀ i, (s.sb.counters.rd 0 i).toNat ≤ (t.sb.counters.rd 0 i).toNat) ∧
      ∃ d ∈ t.agenda, d.ev = .scorebookCommit ∧ d.at_ = s.now + 120000000000) ∧
    (s.pkg.powered = true → ∃ t, exec .scorebookSecondTick s = .next t ∧ t.sb.counters = s.sb.counters ∧
      (t.sb.shadow.rd 0 0).toNat = min (2 ^ 64 - 1) ((s.sb.shadow.rd 0 0).toNat + 1) ∧
      (∀ b, b = 0x10 + tempBin s.pkg.temp → (t.sb.shadow.rd 0 b).toNat = min (2 ^ 64 - 1) ((s.sb.shadow.rd 0 b).toNat + 1)) ∧
      ∃ d ∈ t.agenda, d.ev = .scorebookSecondTick ∧ d.at_ = s.now + 2000000000) ∧
    (s.bar0Open = true → ∃ t, exec .sbDataloRead s = .next t ∧ t.sb.latch = s.sbAt s.sb.index ∧ t.sb.counters = s.sb.counters ∧
      t.hostRead = leBytes 4 (s.sbAt s.sb.index).toNat) ∧
    (s.bar0Open = true → s.hport.shutdown = false →
      (bitAt s.sb.stat 0 = true → ∃ t, exec .sbSnap s = .next t ∧ t.sb.snap = s.sb.snap ∧ bitAt t.sb.stat 2 = true) ∧
      (bitAt s.sb.stat 0 = false → ∃ t, exec .sbSnap s = .next t ∧ t.sb.snap = s.snapshot ∧ t.sb.snapSeq = s.sb.snapSeq + 1 ∧
        bitAt t.sb.stat 0 = true ∧ ∃ d ∈ t.agenda, d.ev = .snapshotDone ∧ d.at_ ≤ s.now + 100000000)) ∧
    (bitAt s.sb.stat 0 = true → ∃ t, exec .snapshotDone s = .next t ∧ bitAt t.sb.stat 0 = false ∧ bitAt t.sb.stat 1 = true ∧
      t.sb.snapLen = s.sb.snap.length) ∧
    (s.bar0Open = true → s.hport.shutdown = false → ∃ t, exec .devShutdown s = .next t ∧ t.hport.shutdown = true ∧
      ∃ d ∈ t.agenda, d.ev = .orderlyShutdownComplete) ∧
    (s.hport.shutdown = true → s.hport.offok = false →
      (s.fields.any (fun e => e.2.unsettled) = false → ∃ t, exec .orderlyShutdownComplete s = .next t ∧ t.hport.offok = true ∧
        t.sb.shadow = []) ∧
      (s.fields.any (fun e => e.2.unsettled) = true → ∃ t, exec .orderlyShutdownComplete s = .next t ∧ t.hport.offok = false ∧
        ∃ d ∈ t.agenda, d.ev = .orderlyShutdownComplete ∧ d.at_ = s.now + 1))

/-- R43, R47, R50 to R55, R57, R58, R61, R65, R136, R161: training, the time base, frames and flits.  A port that trains takes its
lanes and its latency from the training, and its entry of the map is written; a port cabled otherwise, or a torus with any number
of time roots but one, sets CFGERR and ends the training.  The root begins its global time at 0, every other package sets it from
a time flit of its receive port.  A flit is lost where its codeword is uncorrectable, and a data flit also where its frame's time
flit was lost or failed its SEAL; a time flit that fails its SEAL is not lost itself.  A lost flit at a port that is up is counted
on that port's counter; a port that is down takes nothing.  An ordinary data flit goes to the commands of every tile and into the
port's buffer.  TOR_HOP is kept as a multiple of 4, at most 4,092.
The model's own readings are that a port keeps its lanes while it retrains and that TRAIN clears TIMED (log entry 24), and that the
first time flit gives the time base as its stamp plus the port's latency, with the sixteenths it carries (log entry 59). -/
def Obligations.TorusEvents : Prop :=
  ∀ (v : W32) (p : BitVec 3) (r : Training) (slot pos n : Nat) (flit : Option (List Byte)) (s : State),
    let q := p.toNat
    let x := s.port q
    let lost (t : State) : Prop :=
      (t.sb.shadow.rd 0 (0x58 + q)).toNat = min (2 ^ 64 - 1) ((s.sb.shadow.rd 0 (0x58 + q)).toNat + 1)
    (s.bar0Writes = true → ∃ t, exec (.torHopWrite v) s = .next t ∧ t.torus.hop % 4 = 0 ∧ t.torus.hop ≤ 4092 ∧ t.ctxs = s.ctxs ∧
      (v.toNat % 4096 ≤ 4092 → v.toNat % 4096 ≤ t.torus.hop ∧ t.torus.hop < v.toNat % 4096 + 4)) ∧
    (s.bar0Open = true → ∃ t, exec .torTimeloRead s = .next t ∧ t.torus.latch = .ofNat 64 s.global ∧ t.hostRead = leBytes 4 (s.global % 2 ^ 64) ∧
      t.ctxs = s.ctxs) ∧
    (s.bar0Writes = true → s.hport.stage = 4 ∨ s.hport.stage = 5 →
      (s.torusOk = false → ∃ t, exec .torTrain s = .next t ∧ t.torus.cfgerr = true ∧ t.torus.training = false) ∧
      (s.torusOk = true → ∃ t, exec .torTrain s = .next t ∧ t.torus.training = true ∧ t.torus.timed = false ∧
        ∀ k ∈ s.livePorts, (t.port k).up = false ∧ (t.port k).trained = false)) ∧
    (q ∉ s.livePorts ∨ r.ok = false → exec (.portTrainingDone p r) s = .next s) ∧
    (q ∈ s.livePorts → r.ok = true →
      (r.cabled = true → r.roots + b2n s.torus.root = 1 → ∃ t, exec (.portTrainingDone p r) s = .next t ∧ (t.port q).up = true ∧
        (t.port q).lanes = r.lanes.toNat ∧ (t.port q).lat = r.lat.toNat ∧ 64 ≤ (t.port q).lat ∧ (t.port q).lat ≤ 4095 ∧
        (t.port q).epoch = (x.epoch + 1) % 256 ∧ (t.sb.map.rd 0 (0x3000 + q)).toNat = r.bad.toNat + 2 ^ 16 * r.lanes.toNat) ∧
      (r.cabled = false ∨ r.roots + b2n s.torus.root ≠ 1 → ∃ t, exec (.portTrainingDone p r) s = .next t ∧ (t.port q).up = false ∧
        t.torus.cfgerr = true ∧ t.torus.training = false)) ∧
    (∃ t, exec (.portRetrain p) s = .next t ∧ (t.port q).up = false ∧ (t.port q).rx = none ∧ (t.port q).lanes = x.lanes ∧
      ∀ k, k ≠ q → t.port k = s.port k) ∧
    (s.torus.timed = false → s.torus.training = true →
      (s.torus.root = true → ∃ t, exec .timeBaseStart s = .next t ∧ t.global = 0 ∧ t.torus.timed = true ∧ t.pkg.ready = true ∧
        t.hport.stage = 5) ∧
      (∀ k stamp tags, s.torus.root = false → s.timePort = some k → (s.port k).rx = some (stamp, tags) →
        ∃ t, exec .timeBaseStart s = .next t ∧ t.torus.timed = true ∧ t.pkg.ready = true ∧ t.hport.stage = 5 ∧
          t.gzero = ((s.port k).rxAt : Int) - ((stamp + (s.port k).lat + (s.port k).frac / 16 : Nat) : Int) ∧
          t.torus.frac = (s.port k).frac % 16)) ∧
    (s.torus.timed = true → ∃ t, exec .frameDeparture s = .next t ∧ t.ctxs = s.ctxs ∧
      (∃ d ∈ t.agenda, d.ev = .frameDeparture ∧ d.at_ = s.now + 4) ∧
      ∀ k, k < 6 → (s.port k).up = true → ∃ bs, Out.flit k (4 * (s.global / 4)) 0 bs ∈ t.out ∧ bs.length = 64 ∧ numAt bs 0 1 = 1 ∧
        numAt bs 2 6 = 4 * (s.global / 4) % 2 ^ 48) ∧
    (x.up = false → (∃ t, exec (.timeFlitReceive p flit n) s = .next t ∧ t.torus = s.torus ∧ t.tiles = s.tiles) ∧
      exec (.dataFlitReceive p ⟨slot, pos⟩ flit) s = .next s) ∧
    (x.up = true →
      (flit = none → ∃ t, exec (.timeFlitReceive p flit n) s = .next t ∧ t.tiles = s.tiles ∧ (t.port q).rx = none ∧ lost t) ∧
      (∀ bs, flit = some bs → sealed bs = false → ∃ t, exec (.timeFlitReceive p flit n) s = .next t ∧ t.tiles = s.tiles ∧
        (t.port q).rx = none ∧ t.sb.shadow.rd 0 (0x58 + q) = s.sb.shadow.rd 0 (0x58 + q)) ∧
      (∀ bs, flit = some bs → sealed bs = true → ∃ t, exec (.timeFlitReceive p flit n) s = .next t ∧
        (t.port q).rx = some (numAt bs 2 6, (List.range 11).map (fun j => numAt bs (8 + 2 * j) 2)) ∧ (t.port q).rxAt = s.now ∧
        t.sb.shadow.rd 0 (0x58 + q) = s.sb.shadow.rd 0 (0x58 + q)) ∧
      (flit = none ∨ x.rx = none → ∃ t, exec (.dataFlitReceive p ⟨slot, pos⟩ flit) s = .next t ∧ t.tiles = s.tiles ∧ lost t) ∧
      (∀ bs st tags tag, flit = some bs → x.rx = some (st, tags) → tags[slot - 1]? = some tag →
        (tag = 0xFFFE → ∃ t, exec (.dataFlitReceive p ⟨slot, pos⟩ flit) s = .next t ∧ t.tiles = s.tiles ∧ t.sb = s.sb ∧
          t.torus = s.torus ∧ ∀ ev, noticeOf p bs = some ev → ∃ d ∈ t.agenda, d.ev = ev ∧ d.at_ = s.now) ∧
        (tag ≠ 0xFFFE → ∃ t, exec (.dataFlitReceive p ⟨slot, pos⟩ flit) s = .next t ∧ t.sb = s.sb ∧
          let y : Flit := ⟨s.stampCycle st, slot, slotsOf x.lanes, x.lat, tag, pos, bs, s.now⟩
          y ∈ (t.port q).buf ∧ ∀ k, (t.tile k).link = (s.tile k).link.map (s.offer q y k))))

/-! ### The host port -/

/-- R6, R7, R8, R9, R33, R111, R112, R113, R116, R119, R120, R121, R126, R129, R130: the doorbells, the queue registers, the reading
of a slot, the event and fault-queue registers, an aligned 8-byte access as two of 4 bytes in ascending order, a write of 1 to a bit
that the device sets in the same cycle, and accesses that have no effect. -/
def Obligations.QueuesAndRegisters : Prop :=
  ∀ (q : BitVec 10) (v w : W32) (n : BitVec 12) (off : BitVec 26) (len : Nat) (die : BitVec 2) (s : State),
    let x := s.queue q.toNat
    (s.reads q.toNat = true →
      let p := s.slotPkt q.toNat
      ((p.num 2 2 == p.seq && sealed p.bytes) = true → s.packetError p = 0 → ∃ t, exec (.slotRead q) s = .next t ∧
        (t.queue q.toNat).head = x.head + 1 ∧ (t.queue q.toNat).taken = x.taken ++ [p] ∧ t.ctxs = s.ctxs) ∧
      ((p.num 2 2 == p.seq && sealed p.bytes) = true → s.packetError p ≠ 0 → ∃ t, exec (.slotRead q) s = .next t ∧
        (t.queue q.toNat).head = x.head ∧ (t.queue q.toNat).err = true ∧ (t.queue q.toNat).code = s.packetError p ∧
        (t.queue q.toNat).errSeq = x.head ∧ t.fields = s.fields) ∧
      ((p.num 2 2 == p.seq && sealed p.bytes) = false → ∃ t, exec (.slotRead q) s = .next t ∧ (t.queue q.toNat).head = x.head ∧
        (t.queue q.toNat).firstRead = some (x.firstRead.getD s.now) ∧ t.fields = s.fields ∧
        (∃ d ∈ t.agenda, d.ev = .slotRead q ∧ s.now < d.at_ ∧ d.at_ ≤ s.now + 500) ∧
        (x.firstRead = none → ∃ d ∈ t.agenda, d.ev = .sealTimeout q ∧ d.at_ = s.now + 4000))) ∧
    (∀ f, x.firstRead = some f → f + 4000 ≤ s.now → s.reads q.toNat = true → ∃ t, exec (.sealTimeout q) s = .next t ∧
      (t.queue q.toNat).err = true ∧ (t.queue q.toNat).code = 1 ∧ (t.queue q.toNat).head = x.head) ∧
    (s.bar0Writes = true →
      (∀ d, d = (BitVec.ofNat 16 v.toNat - x.head).toNat →
        (256 < d → x.err = false → ∃ t, exec (.qKick q v) s = .next t ∧ (t.queue q.toNat).err = true ∧ (t.queue q.toNat).code = 3) ∧
        (d ≤ (x.tail - x.head).toNat → d ≤ 256 → exec (.qKick q v) s = .next s) ∧
        ((x.tail - x.head).toNat < d → d ≤ 256 → ∃ t, exec (.qKick q v) s = .next t ∧ (t.queue q.toNat).tail = .ofNat 16 v.toNat ∧
          (t.queue q.toNat).head = x.head ∧ (t.queue q.toNat).err = x.err)) ∧
      (∃ t, exec (.qCtlWrite q v) s = .next t ∧ (t.queue q.toNat).en = v.getLsbD 0 ∧ (t.queue q.toNat).prio = v.toNat / 2 % 8 ∧
        (t.queue q.toNat).weight = v.toNat / 16 % 256 ∧ (t.queue q.toNat).head = x.head ∧ (t.queue q.toNat).tail = x.tail) ∧
      (∃ t, exec (.qReset q v) s = .next t ∧ (x.en = true → t.queue q.toNat = x) ∧
        (x.en = false → (t.queue q.toNat).head = .ofNat 16 v.toNat ∧ (t.queue q.toNat).tail = .ofNat 16 v.toNat ∧
          (t.queue q.toNat).err = false)) ∧
      (∃ t, exec (.evHostWrite n v) s = .next t ∧ t.hport.ev.rd 0 n.toNat = v ∧
        (∀ k, k ≠ n.toNat → t.hport.ev.rd 0 k = s.hport.ev.rd 0 k) ∧ t.ctxs = s.ctxs) ∧
      (∃ t, exec (.fqConsWrite v) s = .next t ∧ t.hport.fqCons = .ofNat 16 v.toNat ∧ t.hport.fqProd = s.hport.fqProd) ∧
      (0x110018 ≤ off.toNat → off.toNat < 0x120000 → off.toNat % 4 = 0 → exec (.registerWrite off ⟨v, none⟩) s = .next s) ∧
      (off = 0x110000#26 → ∃ t, exec (.registerWrite off ⟨v, none⟩) s = .next t ∧ t.col.budget = min 2400 (v.toNat % 4096)) ∧
      (off = 0x130010#26 → exec (.registerWrite off ⟨v, none⟩) s = exec (.torHopWrite v) s) ∧
      (off = 0x100000#26 → ∃ t, exec (.registerWrite off ⟨v, none⟩) s = .next t ∧
        (v.getLsbD 2 = true → t.pkg.thwarn = (s.pkg.thwarn && s.hport.sets.contains (0x100000, 2))) ∧
        (v.getLsbD 2 = false → t.pkg.thwarn = s.pkg.thwarn)) ∧
      (off.toNat % 4 ≠ 0 → ∃ t, exec (.registerWrite off ⟨v, none⟩) s = .next t ∧ t.hport.badacc = true ∧ t.ctxs = s.ctxs)) ∧
    (off.toNat % 8 = 0 →
      exec (.registerWrite off ⟨v, some w⟩) s = .next ((s.wordWrite off.toNat v.toNat).wordWrite (off.toNat + 4) w.toNat)) ∧
    (s.bar0Writes = false → ∀ i ∈ [Instr.qKick q v, .qCtlWrite q v, .qReset q v, .evHostWrite n v, .fqConsWrite v, .colBudgetWrite v,
      .torHopWrite v, .torTrain], exec i s = .next s) ∧
    (accessOk off.toNat len = false → ∃ t, exec (.bar0BadAccess off.toNat len) s = .next t ∧ t.hostRead = List.replicate len 0 ∧
      t.ctxs = s.ctxs ∧ (s.bar0Open = true → t.hport.badacc = true)) ∧
    (off.toNat % 4 = 0 → ∃ t, exec (.bar0BadAccess off.toNat 4) s = .next t ∧ t.hostRead = leBytes 4 (s.bar0 off.toNat).toNat ∧
      t.ctxs = s.ctxs ∧ t.hport = s.hport) ∧
    (off.toNat % 8 = 0 → ∃ t, exec (.bar0BadAccess off.toNat 8) s = .next t ∧ t.ctxs = s.ctxs ∧ t.hport = s.hport ∧
      t.hostRead = leBytes 4 (s.bar0 off.toNat).toNat ++ leBytes 4 (s.bar0 (off.toNat + 4)).toNat) ∧
    ((s.hport.fqFull = true → exec .faultRecordWrite s = .next s) ∧
      (∀ r rs, s.hport.fqFull = false → s.hport.fqWait = r :: rs → s.batchDies = [] → ∃ t, exec .faultRecordWrite s = .next t ∧
        t.hport.fqProd = s.hport.fqProd + 1 ∧ t.hport.fqNew = true ∧ t.hport.fqWait = rs ∧
        ∀ k, k < 32 → t.hport.fqRing.byte (32 * (s.hport.fqProd.toNat % 1024) + k) = (r[k]?).getD 0)) ∧
    (∀ b, (s.die die.toNat).open_ = some b → (b.opened + 40000 ≤ s.now → ∃ t, exec (.faultBatchClose die) s = .next t ∧
        (t.die die.toNat).open_ = none) ∧
      (s.now < b.opened + 40000 → exec (.faultBatchClose die) s = .next s))

/-- R114, R118, R122, R123, R125 to R128, R133 to R135, R157: what each packet does when it starts, and what completes it; and the
staging aperture.  A packet that completes leaves its queue, and with NOTIFY set its vector is signalled.
The model's own choices are that packets wait for the BAR4 writes that came before them (log entry 69), and that BAR4 reads are served
in every stage and BAR4 writes dropped before stage 1 and after SHUTDOWN (log entry 97). -/
def Obligations.PacketsAndStaging : Prop :=
  ∀ (q : BitVec 10) (id : Nat) (remote : Table Byte) (off : BitVec 30) (len : Nat) (bytes : List Byte) (s : State),
    let p := s.pkt
    let x := s.queue q.toNat
    (∀ a, x.started.find? (fun y => y.id == a.id) = some a → let t := s.packetDone q.toNat a.id
      (t.queue q.toNat).started = x.started.filter (fun y => y.id != a.id) ∧ t.ctxs = s.ctxs ∧ t.fields = s.fields ∧
      (pktNotify a = false → t.out = s.out) ∧
      (pktNotify a = true → s.hport.masked (4 + q.toNat % 28) = false → .msix (4 + q.toNat % 28) ∈ t.out)) ∧
    (s.mayStart q.toNat = none → exec (.packetStart q) s = .next s) ∧
    (∀ a, s.mayStart q.toNat = some a → ∃ t, exec (.packetStart q) s = .next t ∧ t.pkt = a ∧
      (t.queue q.toNat).taken = x.taken.tail ∧ (t.queue q.toNat).started = x.started ++ [a] ∧
      ∃ d ∈ t.agenda, d.ev = packetEvent a ∧ d.at_ = s.now) ∧
    exec .eventSetWrite s = .next ((s.setEv (p.num 4 2) (.ofNat 32 (p.num 8 4))).packetDone p.q p.id) ∧
    exec .eventSetAdd s = .next ((s.evAdd (p.num 4 2) (p.num 8 4)).packetDone p.q p.id) ∧
    exec .eventWait s = .next (if s.evReached (p.num 4 2) (.ofNat 32 (p.num 8 4)) then s.packetDone p.q p.id else s) ∧
    (∀ a, s.startedWhere (fun y => pktType y == 7 && s.waitHolds y) = [a] → exec .eventWaitMet s = .next (s.packetDone a.q a.id)) ∧
    (∀ a, s.readyFences = [a] → exec .fencePacket s = .next (s.packetDone a.q a.id)) ∧
    (s.grouped (p.num 4 2) = false → s.grouped (p.num 6 2) = false →
      exec .pair s = .next (({ s with groups := s.groups ++ [(p.num 4 2, p.num 6 2)] } : State).packetDone p.q p.id)) ∧
    (∃ t c, exec .copy s = .next t ∧ t.cmds = s.cmds ++ [c] ∧ c.ins = .copy ∧ c.shape.total = p.num 24 4 ∧
      c.val 9 = p.q % 2 ^ 64 ∧ c.val 10 = p.seq % 2 ^ 64 ∧ c.val 11 = p.num 4 2 ∧ c.val 12 = p.id % 2 ^ 64 ∧ t.ctxs = s.ctxs) ∧
    (s.cmd id = none → exec (.copyComplete id remote) s = .next s) ∧
    (∀ c, s.cmd id = some c → c.ins = .copy → s.hport.shutdown = false → c.shape.total ≤ 128 * c.prog → c.lowest = none →
      exec (.copyComplete id remote) s = .next (((s.dropCmd id).evAdd (c.val 11) 1).packetDone (c.val 9) (c.val 12))) ∧
    (∀ i ∈ [Instr.fwloadDevice, .fwloadBankUnit, .queryDevice, .queryAttestation, .queryFieldState],
      (i = .fwloadDevice ∨ i = .fwloadBankUnit → s.hport.loading = none ∧ s.imageWaits = false) → ∃ t, exec i s = .next t ∧
      t.hport.mbBusy = true ∧ t.hport.mbBuf = [] ∧ t.ctxs = s.ctxs ∧ (∃ r a, t.hport.mbNext = some (r, a, p)) ∧
      ∃ d ∈ t.agenda, d.ev = .mailboxDone) ∧
    (s.hport.loading = none → s.imageWaits = true → ∀ i ∈ [Instr.fwloadDevice, .fwloadBankUnit],
      (i = .fwloadBankUnit → s.unitsBusy = false) → ∃ t, exec i s = .next t ∧ t.hport.mbBusy = true ∧ t.hport.loading = some p ∧
        t.hport.mbNext = s.hport.mbNext ∧ ∃ d ∈ t.agenda, d.ev = i ∧ s.now < d.at_) ∧
    (s.hport.loading = none → s.unitsBusy = true → ∃ t, exec .fwloadBankUnit s = .next t ∧ t.micro = s.micro ∧ t.starts = s.starts ∧
      t.hport.mbNext = some (4, [], p)) ∧
    (p.num 4 1 = 2 → s.live (p.num 6 2) = false → ∃ t, exec .queryFieldState s = .next t ∧
      t.hport.mbNext = some (0, leBytes 2 (p.num 6 2) ++ [0xFF, 0, 0], p)) ∧
    (2 < p.num 4 1 → ∃ t, exec .queryFieldState s = .next t ∧ t.hport.mbNext = some (5, [], p)) ∧
    (∀ r bs y, s.hport.mbNext = some (r, bs, y) → ∃ t, exec .mailboxDone s = .next t ∧ t.hport.mbBusy = false ∧ t.hport.mbDone = true ∧
      t.hport.mbResult = r ∧ t.hport.mbLen = bs.length ∧ t.hport.mbBuf = bs ∧ t.hport.mbNext = none) ∧
    (∀ l, l = s.stageLines false off.toNat len →
      (l.2.2.linesBusy l.2.1 false = false → ∃ t, exec (.stagingRead off len) s = .next t ∧ t.hostRead.length = len ∧ t.ctxs = s.ctxs ∧
        t.hport.stgerr = (s.hport.stgerr || l.2.1.failed))) ∧
    (∀ l, l = s.stageLines true off.toNat bytes.length →
      (s.bar0Writes = true → bytes ≠ [] → s.hport.stgWait = [] → (∀ a ∈ l.1, l.2.1.get (a / 128) ≠ .busy) →
        exec (.stagingWrite off bytes) s = .next ((l.2.2.kWrite l.2.1 3 0 0 (l.1.zip bytes)).setStgerr l.2.1.failed)) ∧
      (s.bar0Writes = true → s.hport.stgWait = [] → (∃ a ∈ l.1, l.2.1.get (a / 128) = .busy) → ∃ t,
        exec (.stagingWrite off bytes) s = .next t ∧ t.ctxs = s.ctxs ∧
        t.hport.stgWait = (l.1.zip bytes).filter (fun c => l.2.1.get (c.1 / 128) == .busy) ∧
        ∃ d ∈ t.agenda, d.ev = .stagingWrite off [] ∧ d.at_ = s.now + 1))

/-! ### Fields, notices and domains -/

/-- R138, R142 to R145, R153, R154, R156, R162, R330: the packets that name a field, and the events that carry it from launch to
completion; each for a field outside any alternation group.  A freeze cycle and a start are multiples of 4, at least the lead
after the request; tcyc stands still from the freeze to the resumption, and starts from 0.
That a start or a resume under THTRIP takes effect and then freezes at once is the model's own reading of R19 (log entry 52). -/
def Obligations.FieldsRunFreezeAndEnd : Prop :=
  ∀ (field : Half) (remote : Table Byte) (s : State),
    let f := field.toNat
    let x := s.field f
    s.groups = [] →
    (s.pkt.num 4 2 = f →
      (s.live f = true → x.state = .waiting → ∃ t, exec .launch s = .next t ∧ (t.field f).state = .ready ∧ t.decide_ = true ∧ t.ctxs = s.ctxs) ∧
      (s.live f = true → x.state = .running → ∃ t c, exec .park s = .next t ∧ (t.field f).state = .freezing ∧
        (t.field f).freezeF = some c ∧ c % 4 = 0 ∧ s.tcycOf f + x.lead ≤ c ∧ c < s.tcycOf f + x.lead + 4 ∧
        (s.pkt.q, s.pkt.id) ∈ (t.field f).parkers) ∧
      (s.live f = false → ∀ i ∈ [Instr.park, .resume, .evict], exec i s = .next (s.packetDone s.pkt.q s.pkt.id)) ∧
      (s.live f = true → x.state = .parked → x.resumeG = none → s.hport.shutdown = false → x.noLambda = false →
        ∃ t g, exec .resume s = .next t ∧ (t.field f).resumeG = some g ∧
        g % 4 = 0 ∧ s.global + x.lead ≤ g ∧ (s.pkt.q, s.pkt.id) ∈ (t.field f).resumers ∧
        ∃ d ∈ t.agenda, d.ev = .fieldResume (.ofNat 16 f)) ∧
      (s.live f = true → x.state = .running → s.poolRoom f = true →
        (s.modField f (fun y => { y with evicters := y.evicters ++ [(s.pkt.q, s.pkt.id)] })).poolRoom f = true → ∃ t, exec .evict s = .next t ∧ (t.field f).state = .freezing ∧
        (t.field f).toEvict = true ∧ (s.pkt.q, s.pkt.id) ∈ (t.field f).evicters)) ∧
    (∀ o, s.hport.shutdown = false → s.pkg.ready = true → s.fields = [(f, x)] → x.state = .ready → (s.queue x.queue).prio < 8 →
      x.claim = none → s.fits f = some o → ∃ t, exec .schedulerDecision s = .next t ∧ (t.field f).state = .loading ∧ (t.field f).origin = o ∧
        t.col.standing = s.col.standing ++ [(f, x.pass)] ∧ ∃ d ∈ t.agenda, d.ev = .imageLoaded field []) ∧
    (s.hport.shutdown = true → exec .schedulerDecision s = .next { s with decide_ := false }) ∧
    (∀ b s1 code s2 dict s3, s.early = [] → s.hport.shutdown = false → s.live f = true → x.state = .loading → x.span < 2 →
      s.imageBytes x.image 128 remote = (some (some b), s1) → badHead b x false = false →
      s1.imageBytes (x.image + 128) (2 * numAt b 4 2) remote = (some (some code), s2) →
      s2.imageBytes (x.image + dictStart (numAt b 4 2)) (48 * numAt b 6 2) remote = (some (some dict), s3) →
      ∃ t, exec (.imageLoaded field remote) s = .next t ∧ (t.field f).state = .starting ∧ (t.field f).codeLen = numAt b 4 2 ∧
        (t.field f).dictLen = numAt b 6 2 ∧ (t.field f).resumeG = some (roundUp (s.global + 1) 4)) ∧
    (∀ s1, s.early = [] → s.live f = true → x.state = .loading → s.imageBytes x.image 128 remote = (some none, s1) →
      ∃ t, exec (.imageLoaded field remote) s = .next t ∧ t.live f = false ∧ t.decide_ = true) ∧
    (s.live f = true → x.state = .starting → x.resumeG = some s.global → x.toEvict = false → s.pkg.thtrip = false →
      s.hport.shutdown = false → s.hport.offok = false → ∃ t, exec (.fieldStart field) s = .next t ∧ (t.field f).state = .running ∧
        (t.field f).ticking = true ∧ t.tcycOf f = 0) ∧
    (s.live f = true → s.hport.offok = false → s.pkg.thtrip = true →
      (x.state = .starting → x.resumeG = some s.global → ∃ t, exec (.fieldStart field) s = .next t ∧ (t.field f).state = .freezing ∧
        (t.field f).tripped = true) ∧
      (x.state = .parked → x.resumeG = some s.global → ∃ t, exec (.fieldResume field) s = .next t ∧ (t.field f).state = .freezing ∧
        (t.field f).tripped = true)) ∧
    (s.live f = true → x.state = .freezing → x.ticking = true → ∀ c, x.freezeF = some c →
      (s.tcycOf f < c → exec (.freeze field) s = .next s) ∧
      (c ≤ s.tcycOf f → ∃ t, exec (.freeze field) s = .next t ∧ (t.field f).ticking = false ∧ t.tcycOf f = s.tcycOf f ∧
        ∃ d ∈ t.agenda, d.ev = .fieldQuiet field ∧ d.at_ = s.now + 576)) ∧
    (s.live f = true → x.state = .freezing → x.ticking = false → x.toEvict = false → x.quietAt ≤ s.global →
      ∃ t, exec (.fieldQuiet field) s = .next t ∧ (t.field f).state = .parked ∧ (t.field f).parkers = []) ∧
    (s.live f = true → x.state = .evicting →
      (s.cmdsLeft f = true → ∃ t, exec (.savesComplete field) s = .next t ∧ t.fields = s.fields ∧
        ∃ d ∈ t.agenda, d.ev = .savesComplete field) ∧
      (s.cmdsLeft f = false → ∃ t, exec (.savesComplete field) s = .next t ∧ (t.field f).state = .evicted ∧
        (t.field f).evicters = [] ∧ t.decide_ = true)) ∧
    (s.live f = true → x.state = .restoring → s.cmdsLeft f = false → s.hport.shutdown = false → x.noLambda = false →
      ∃ t, exec (.restoreComplete field) s = .next t ∧
      (t.field f).state = .parked ∧ (t.field f).resumeG.isSome = true ∧ t.saved.find f = none) ∧
    (s.live f = true → x.state = .parked → x.resumeG = some s.global → x.tcStop ≤ s.now → s.pkg.thtrip = false →
      s.hport.shutdown = false → s.hport.offok = false → ∃ t, exec (.fieldResume field) s = .next t ∧
      (t.field f).state = .running ∧ (t.field f).ticking = true ∧ t.tcycOf f = x.tcStop) ∧
    (s.live f = true → x.state = .running → x.ticking = true → x.span < 2 →
      (∀ r ∈ x.rels, (s.place f r).1.done = true ∨ (s.place f r).1.halted = true) → ∃ t, exec (.fieldComplete field) s = .next t ∧
      t.live f = false ∧ (∀ c ∈ t.cmds, c.field ≠ f) ∧ t.decide_ = true)

/-- R140, R161, R163, R164, R167 to R169, R336: what a notice does, that a notice already seen or not sealed does nothing, and what a
phase release does: the phase number rises, and every context that arrived goes on; a resume that is fixed wakes the field's windows,
and a window turns drowsy once its field has been parked for 2,000,000 cycles.
The model's own readings are that a notice for a field not yet placed here waits for its placement (log entry 50), that of two cycles
fixed for one freeze or resumption the earliest holds (log entry 117), and the cycles from which a window's 2,000,000 cycles to drowsiness
count (log entry 54). -/
def Obligations.NoticesAndReleases : Prop :=
  ∀ (port : BitVec 3) (flit : List Byte) (d : DomKey) (tile : BitVec 8) (hw : BitVec 2) (s : State),
    let n := noticeAt flit
    let x := s.field n.field
    (sealed flit = false ∨ (n.origin, n.serial) ∈ s.seen →
      ∀ i ∈ [Instr.noticePlaced port flit, .noticeFreeze port flit, .noticeResume port flit, .noticeArrived port flit, .noticeDone port flit],
        exec i s = .next s) ∧
    (sealed flit = true → (n.origin, n.serial) ∉ s.seen → s.live n.field = false → ∃ t, exec (.noticePlaced port flit) s = .next t ∧ t.early = s.early ++ [(port.toNat, flit)] ∧
      t.fields = s.fields) ∧
    (sealed flit = true → (n.origin, n.serial) ∉ s.seen → s.live n.field = true → 2 ≤ x.span →
      (x.placed = true → (∀ e ∈ x.notices, e.1 ≠ n.origin) → ∃ t, exec (.noticePlaced port flit) s = .next t ∧
        (n.origin, n.cycle, n.lmax) ∈ (t.field n.field).notices ∧ (n.origin, n.serial) ∈ t.seen) ∧
      (x.ticking = true → x.state = .running ∨ x.state = .freezing →
        (∀ c, x.freezeF = some c → n.cycle < s.global + (c - s.tcycOf n.field)) → s.global + 64 ≤ n.cycle →
        ∃ t, exec (.noticeFreeze port flit) s = .next t ∧
          (t.field n.field).state = .freezing ∧ (t.field n.field).freezeF = some (s.tcycOf n.field + (n.cycle - s.global)) ∧
          t.ctxs = s.ctxs ∧ ∃ e ∈ t.agenda, e.ev = .freeze (.ofNat 16 n.field) ∧ e.clk = some n.field ∧
            e.at_ = s.tcycOf n.field + (n.cycle - s.global)) ∧
      (x.ticking = false → (∀ g, x.resumeG = some g → n.cycle < g) → s.global + 64 ≤ n.cycle → ∃ t, exec (.noticeResume port flit) s = .next t ∧
        (t.field n.field).resumeG = some n.cycle ∧ (∀ k h, t.ctx k h = { s.ctx k h with drowsy := (t.ctx k h).drowsy }) ∧
        (∀ l ∈ x.places, (t.ctx l.1 l.2).drowsy = false) ∧
        ∃ e ∈ t.agenda, e.ev = .fieldResume (.ofNat 16 n.field) ∧ e.at_ = ((n.cycle : Int) + s.gzero).toNat) ∧
      (n.phase = (s.domain (spanDomain n.field n.dom)).phase.toNat →
        (∀ r ∈ (s.domain (spanDomain n.field n.dom)).remote, ¬(r.1 = n.origin ∧ r.2.1 = n.phase)) →
        ∃ t, exec (.noticeArrived port flit) s = .next t ∧
          (n.origin, n.phase, n.cycle) ∈ (t.domain (spanDomain n.field n.dom)).remote) ∧
      (∃ t, exec (.noticeDone port flit) s = .next t ∧ n.origin ∈ (t.field n.field).dones ∧ t.ctxs = s.ctxs)) ∧
    (∀ a, (s.domain d).remote.find? (fun m => m.1 == s.pkgNum && m.2.1 == (s.domain d).phase.toNat) = some a →
      (s.domain d).releasing = false → s.live d.field = true → ∃ t, exec (.arrivedNoticeResend d) s = .next t ∧ t.ctxs = s.ctxs ∧ t.doms = s.doms ∧
        ∃ e ∈ t.agenda, e.ev = .arrivedNoticeResend d ∧ e.clk = some d.field ∧ e.at_ = s.tcycOf d.field + 4096) ∧
    ((s.domain d).releasing = false → exec (.phaseRelease d) s = .next s) ∧
    ((s.domain d).releasing = true → s.live d.field = true → ∃ t, exec (.phaseRelease d) s = .next t ∧
      (t.domain d).phase = (s.domain d).phase + 1 ∧ (t.domain d).arrivals = [] ∧
      ((∀ m ∈ (s.domain d).remote, m.2.1 = (s.domain d).phase.toNat) → (t.domain d).releasing = false) ∧
      ∀ r ∈ (s.field d.field).rels, (s.field d.field).container r d.level = d.cont → r ∈ (s.domain d).arrivals.map (·.1) →
        ∀ w, (s.ctx ((s.field d.field).locate r).1 ((s.field d.field).locate r).2).phase = some w → w.arrived = true → w.dom = d →
          (t.ctx ((s.field d.field).locate r).1 ((s.field d.field).locate r).2).phase = none) ∧
    (∀ f, (s.ctx tile.toNat hw.toNat).field = some f → (s.field f).state = .parked → (s.field f).resumeG = none →
      (s.field f).resumeReq = none → ((s.field f).parkedAt + 2000000 ≤ s.now → ∃ t, exec (.windowDrowsy tile hw) s = .next t ∧
        (t.ctx tile.toNat hw.toNat).drowsy = true ∧ (t.ctx tile.toNat hw.toNat).window = (s.ctx tile.toNat hw.toNat).window) ∧
      (s.now < (s.field f).parkedAt + 2000000 → exec (.windowDrowsy tile hw) s = .next s))

/-! ### Bank units -/

/-- R81, R83 to R85, R89 to R107: a call's arrival, turn, run and end, the sessions, and the errors.  A call that is not the one
expected ends with SEQ; one whose turn comes is counted off its stream; a call that ends counts one event and adds its status
to bkstat.  A built-in entry changes no context and no die but the pseudo-channel's own, and waits while another session holds a
channel that its controller needs; AXPY32 writes y + α × x, rounded once.  An uncorrectable on-die error stops the running call
with ECC.
The model's own choices are that a control-store error closes the session and what a machine-check record of a read error holds (log
entry 62), that a call's own controller does not wait for its own session (log entry 101), and which calls end SEQ beside those of R96
(log entry 60). -/
def Obligations.BankUnitCalls : Prop :=
  ∀ (pch : BitVec 9) (id : Nat) (bank : BitVec 4) (row : Nat) (ecc : Bool) (who : Option (BitVec 8 × BitVec 2)) (addr : W64) (s : State),
    let q := s.seqr pch.toNat
    let p := s.selPch
    let counted (t : State) (c : Call) (st : Nat) : Prop := s.live c.field = true → s.saved.find c.field = none →
      let l := (s.field c.field).locate c.rel
      (t.ctx l.1 l.2).bkstat = (s.ctx l.1 l.2).bkstat ||| .ofNat 32 st ∧ (t.ctx l.1 l.2).ereg c.ev = (s.ctx l.1 l.2).ereg c.ev - 1
    let ends (t : State) (k : Nat) (r : RunCall) (st : Nat) : Prop :=
      (t.seqr k).running = some { r with status := Nat.lor r.status st, ended := true } ∧ t.ctxs = s.ctxs ∧ t.fields = s.fields ∧
      ∃ d ∈ t.agenda, d.ev = .callEnd ∧ d.sel = k
    (∀ c, s.calls.find? (fun c => c.id == id) = some c →
      let e := (s.seqr c.pch).expected c.field c.stream
      (c.seq = e → c.seq < 65536 → (∀ y ∈ (s.seqr c.pch).held, ¬(y.field = c.field ∧ y.stream = c.stream ∧ y.seq = c.seq)) →
        ∃ t, exec (.bcallArrive id) s = .next t ∧ (t.seqr c.pch).held = (s.seqr c.pch).held ++ [c] ∧ t.ctxs = s.ctxs) ∧
      (32768 ≤ (c.seq + 65536 - e) % 65536 → ∃ t, exec (.bcallArrive id) s = .next t ∧ (t.seqr c.pch).held = (s.seqr c.pch).held ∧
        counted t c 16)) ∧
    (∀ c, q.held.find? (fun c => c.id == id) = some c → s.callReady q c = true →
      (s.turn q c).1 = .waits → ∃ t, exec (.callStart pch id) s = .next t ∧
        t.seqrs = s.seqrs ∧ t.ctxs = s.ctxs ∧ ∃ d ∈ t.agenda, d.ev = .callStart pch id ∧ s.now < d.at_) ∧
    (∀ c, q.held.find? (fun c => c.id == id) = some c → s.callReady q c = true →
      (s.turn q c).1 ≠ .waits →
      (∃ t, exec (.callStart pch id) s = .next t ∧ t.ctxs = s.ctxs ∧ (t.seqr pch.toNat).expected c.field c.stream =
        (q.expected c.field c.stream + 1) % 65536) ∧
      (q.withdrawn = true → ∃ t r, exec (.callStart pch id) s = .next t ∧ (t.seqr pch.toNat).running = some r ∧ r.call = c ∧
        r.status = 1 ∧ r.ended = true) ∧
      (∀ l u, s.turn q c = (.runs l, u) → ∃ t r, exec (.callStart pch id) s = .next t ∧ (t.seqr pch.toNat).running = some r ∧ r.call = c ∧
        r.status = 0 ∧ r.ended = false ∧ r.pages = l ∧
        ∃ d ∈ t.agenda, d.ev = entryEvent pch c.entry ∧ d.sel = pch.toNat)) ∧
    (∀ r, q.running = some r → r.ended = false → 8 ≤ r.call.entry →
      (∃ t, exec (.microwordStep pch (some (bank, row))) s = .next t ∧ (∃ y, (t.seqr pch.toNat).running = some y ∧ y.ended = true ∧
        y.status = Nat.lor r.status 256) ∧ t.ctxs = s.ctxs) ∧
      ((microWord (s.micro.rd 0 r.upc)).reserved = true → ∃ t, exec (.microwordStep pch none) s = .next t ∧ ends t pch.toNat r 512) ∧
      ((microWord (s.micro.rd 0 r.upc)).reserved = false → (microWord (s.micro.rd 0 r.upc)).bus = 0 →
        (microWord (s.micro.rd 0 r.upc)).next = 0 → ∃ t, exec (.microwordStep pch none) s = .next t ∧
        (t.seqr pch.toNat).running = some { r with upc := (r.upc + 1) % 256, status := Nat.lor r.status 0 } ∧ t.ctxs = s.ctxs ∧ t.dies = s.dies)) ∧
    (∀ r, q.running = some r → r.ended = false → 2 ≤ r.call.entry → r.call.entry < 8 → r.call.pch = pch.toNat →
      exec (.microwordStep pch none) s = .next s ∧
      ∃ t y, exec (.microwordStep pch (some (bank, row))) s = .next t ∧ (t.seqr pch.toNat).running = some y ∧ y.call = r.call ∧
        y.ended = true ∧ (y.status = Nat.lor r.status 256 ∨ y.status = Nat.lor r.status 384) ∧ t.ctxs = s.ctxs) ∧
    (∀ r, (s.seqr p).running = some r → r.ended = true → ∃ t, exec .callEnd s = .next t ∧ (t.seqr p).running = none ∧
      counted t r.call r.status) ∧
    (∀ r, (s.seqr p).running = some r → r.ended = false →
      (r.call.entry = 0 → (s.seqr p).session = none → ∃ t y, exec .abmEnter s = .next t ∧ (t.seqr p).session = some y ∧
        y.field = r.call.field ∧ y.stream = r.call.stream ∧ ends t p r 0) ∧
      (r.call.entry = 1 → (s.seqr p).ownSession r.call = true → ∃ t, exec .abmExit s = .next t ∧ (t.seqr p).session = none ∧ ends t p r 0)) ∧
    (∀ y e, (s.seqr p).session = some y → y.lastEnd = some e →
      (s.now < e + 200000 → exec .sessionTimeout s = .next s) ∧
      (e + 200000 ≤ s.now → ∃ t, exec .sessionTimeout s = .next t ∧ (t.seqr p).session = none ∧
        (y.field, y.stream) ∈ (t.seqr p).aborted)) ∧
    exec .refreshBreak s = .next s ∧
    (∀ i e, (i, e) ∈ [(Instr.matvec16, 2), (.axpy32, 3), (.norm2, 4), (.optClip, 5), (.optTrust, 6), (.req4, 7)] →
      (s.runningOf e = none → exec i s = .next s) ∧
      ∀ r, s.runningOf e = some r → r.call.pch = p →
        (s.ctlBusy p r.ctlBytes = false → ∃ t st, exec i s = .next t ∧ ends t p r st ∧ (st = 0 ∨ st = 128) ∧
          t.tiles = s.tiles ∧ ∀ k, k ≠ p / 128 → t.die k = s.die k) ∧
        (s.ctlBusy p r.ctlBytes = true → ∃ t, exec i s = .next t ∧ t.seqrs = s.seqrs ∧ t.dies = s.dies ∧
          ∃ d ∈ t.agenda, d.ev = i ∧ d.sel = p)) ∧
    (∀ r, s.runningOf 3 = some r → ∃ y : Nat → W32 × Bool,
      (∀ k, y k = lane ((fp32.value (r.call.arg 2)).fma (laneV ((⟨s, r.call.pch, r.pages⟩ : CallMem).f32 (r.call.arg 0) k))
        (laneV ((⟨s, r.call.pch, r.pages⟩ : CallMem).f32 (r.call.arg 1) k))).1) ∧
      exec .axpy32 s = .next (((s.putBursts r ((numbered 0 ((List.range (r.call.arg 3)).map y)).map
        (fun z => (r.call.arg 1 + off32 z.1, leBytes 4 z.2.1.toNat)))).freeUnits r.call.pch).finishCall r.call.pch
          (if ((List.range (r.call.arg 3)).map y).any (·.2) then 128 else 0))) ∧
    (let tag := bank.toNat * 49152 + row;
      (q.session.isSome = true ∨ tag ∉ q.utags → exec (.hbmStandardAccess pch bank row ecc who addr) s = .next s) ∧
      (q.session = none → tag ∈ q.utags → ∃ t, exec (.hbmStandardAccess pch bank row ecc who addr) s = .next t ∧
        (t.seqr pch.toNat).utags = q.utags.filter (· != tag))) ∧
    (∃ t, exec (.controlStoreError pch true) s = .next t ∧ t.seqrs = s.seqrs ∧ t.ctxs = s.ctxs ∧
      (t.sb.shadow.rd 0 0x29).toNat = min (2 ^ 64 - 1) ((s.sb.shadow.rd 0 0x29).toNat + 1)) ∧
    (∃ t, exec (.controlStoreError pch false) s = .next t ∧ (t.seqr pch.toNat).withdrawn = true ∧ (t.seqr pch.toNat).session = none)

/-! ### Traps -/

/-- R210, R323, R324, R326 to R330, R340, R398: taking a trap.  In user mode with no record open it saves what is in flight and the
sequencer in record 0, and enters system mode at PC 0, or the delegated handler, whose first bundle issues 4 cycles later; each
result in flight that the record takes has a descriptor with its kind, its target, its data and the cycles it still had to go, and
leaves the list of what is in flight; in system mode it halts the context and saves nothing; registers, memories and other contexts
keep their values.  TRET gives back user mode and the sequencer of the record; at the boundary of the next bundle the record's
results are in flight again, each to land its remaining cycles later, and the record is closed.
The model's own readings are that a result without a KIND in R329 lands by itself (log entry 9), that TRET's PRIV holds its opcode in
tinfo1 (log entry 10), that the results of a record return with the issue of the next bundle (log entry 74), and that a SOFT trap is
taken at the boundary after its bundle, behind a trap that was reported (log entry 102). -/
def Obligations.TakingATrap : Prop :=
  ∀ (tile : BitVec 8) (hw : BitVec 2) (tr : Trap) (w : TrapAt) (g : Guard) (s : State),
    let T := tile.toNat
    let H := hw.toNat
    let c := s.ctx T H
    let x := (s.takeTrap T H tr w).ctx T H
    (∀ t h, 4 * t + h ≠ 4 * T + H → (s.takeTrap T H tr w).ctx t h = s.ctx t h) ∧
    (s.takeTrap T H tr w).tiles = s.tiles ∧ (s.takeTrap T H tr w).dies = s.dies ∧ (s.takeTrap T H tr w).fields = s.fields ∧
    x.user = c.user ∧ x.shadow = c.shadow ∧ x.system = c.system ∧ x.window = c.window ∧ x.e = c.e ∧
    x.tinfo1 = .ofNat 64 tr.info1 ∧ x.tinfo2 = .ofNat 64 tr.info2 ∧
    (c.sys = true → x.halted = true ∧ x.sys = true ∧ x.pc = c.pc ∧ x.catchMem = c.catchMem ∧ x.inflight = c.inflight ∧
      x.tinfo0 = tinfo0Of tr w.late true (c.rec0 && c.deleg) w.pc) ∧
    (c.sys = false → c.rec0 = false → delegated c tr.cause = false → x.sys = true ∧ x.pc = 0 ∧ x.loops = [] ∧ x.dly = 0 ∧ x.rec0 = true ∧
      x.deleg = false ∧ x.smap = c.smap ||| 1 ∧ x.readyAt = s.now + 4 ∧ x.halted = c.halted ∧ x.catchMem.num 0x10 2 = w.rpc % 2 ^ 16 ∧
      x.tinfo0 = tinfo0Of tr w.late false false w.pc) ∧
    (c.sys = false → c.rec0 = false →
      let out := c.inflight.filter (fun r => !r.stays s.now)
      let saved (r : Result) : Option (Nat × Nat × List Byte) := r.dest.caught c (s.tile T)
      x.inflight = c.inflight.filter (fun r => r.stays s.now) ∧
      (out.length ≤ 192 → sumNat (out.map (fun r => ((saved r).map (·.2.2.length)).getD 0)) ≤ 0xF000 → (∀ r ∈ out, r.slot < 8) →
        x.catchMem.num 0 4 = out.length ∧ ∀ k r kind target data, out[k]? = some r → saved r = some (kind, target, data) →
          let d := descAt x.catchMem (0x400 + 16 * k)
          d.kind = kind ∧ d.remain = r.land - s.now ∧ d.shadow = r.dest.isShadow ∧ d.slot = r.slot ∧ d.flags = r.flags.toNat ∧
          d.len = data.length ∧ d.target = target % 2 ^ 64 ∧ x.catchMem.bytes d.doff d.len = data)) ∧
    (delegated c tr.cause = true → x.sys = false ∧ x.pc = c.tdeleg.toNat % s.segSize c.fieldNum ∧ x.rec0 = true ∧ x.deleg = true ∧ x.active = true ∧
      x.uipc = .ofNat 32 w.rpc ∧ x.smap = c.smap ∧ x.readyAt = s.now + 4 ∧ x.tinfo0 = tinfo0Of tr w.late false true w.pc) ∧
    (∀ pc k, c.softNow s.now = some (pc, k) → c.trapsWait s.now = true ∨ c.pendingTrap s.now = none →
      ∃ b, s.boundaryTrap T H c = some (⟨9, k % 256, slS, k, 0⟩, b, c.pending) ∧ b.pc = pc ∧ b.rpc = c.pc ∧ b.late = false) ∧
    (s.trapDue T H = false → exec (.reportedTrapTake tile hw) s = .next s) ∧
    (s.trapDue T H = true → ∃ a b l, s.boundaryTrap T H c = some (a, b, l) ∧
      let u := s.comeBack T H
      let kept := if a.cause = 9 then none else (u.ctx T H).softDue
      (c.back = false → u = s) ∧
      ((u.ctx T H).halted = true → exec (.reportedTrapTake tile hw) s = .next u) ∧
      ((u.ctx T H).halted = false → exec (.reportedTrapTake tile hw) s =
        .next (((u.modCtx T H (fun y => { y with pending := l, softDue := kept })).takeTrap T H a b).modCtx T H
          (fun y => { y with softDue := kept })))) ∧
    (c.back = true → c.rec0 = true → badDesc c.catchMem 0x400 (min 192 (c.catchMem.num 0 4)) = none →
      let y := (s.comeBack T H).ctx T H
      y.rec0 = false ∧ y.back = false ∧ y.pc = c.pc ∧ y.user = c.user ∧ ∃ rs, y.inflight = rs.foldr insertResult c.inflight ∧
        y.inflight.Perm (rs ++ c.inflight) ∧ rs.length = min 192 (c.catchMem.num 0 4) ∧ ∀ k r, rs[k]? = some r → let d := descAt c.catchMem (0x400 + 16 * k)
          r.land = s.now + d.remain ∧ r.slot = d.slot ∧ r.flags = .ofNat 7 d.flags) ∧
    (s.uiReady T H = true → exec (.uiEntry tile hw) s = .next ((s.comeBack T H).enterUi T H) ∧
      (c.back = false → ∃ t, exec (.uiEntry tile hw) s = .next t ∧ (t.ctx T H).pc = c.uivec.toNat % s.segSize c.fieldNum ∧
        (t.ctx T H).uipc = .ofNat 32 c.pc ∧ (t.ctx T H).active = true ∧ (t.ctx T H).user = c.user ∧ (t.ctx T H).inflight = c.inflight ∧
        (t.ctx T H).sys = false)) ∧
    (s.uiReady T H = false → exec (.uiEntry tile hw) s = .next s) ∧
    (s.cc.sys = false → ∃ t, exec (.tret g) s = .next t ∧ t.cur.trap = some ⟨2, 1, slS, 0x20, 0⟩) ∧
    (s.cc.sys = true → s.cc.guard g = true → chkTret g s = none →
      badDesc s.cc.catchMem 0x400 (min 192 (s.cc.catchMem.num 0 4)) = none → ∃ t, exec (.tret g) s = .next t ∧ t.cur.ended = true ∧
      t.cc.sys = false ∧ t.cc.rec0 = true ∧ t.cc.back = true ∧ t.cc.inflight = s.cc.inflight ∧ t.cc.pc = s.cc.catchMem.num 0x10 2 ∧ t.cc.dly = s.cc.catchMem.num 0x12 1 ∧
      t.cc.user = s.cc.user) ∧
    exec .emptyBundle s = .next s

/-- R329, R330: the sequencer state that a record saves is what its return restores: the resume PC, the delay bundles still to
issue and their target, the loop stack, LITPAID and the line at which a tile transfer stood. -/
def Obligations.ARecordRestoresTheSequencer : Prop :=
  ∀ (c : Ctx) (t : Tile) (now tcyc rpc fl reason : Nat) (second : Bool),
    rpc < 2 ^ 16 → c.dly < 2 ^ 8 → c.dtgt < 2 ^ 16 → fl < 16 → c.loops.length ≤ 6 →
    (∀ e ∈ c.loops, e.start < 2 ^ 16 ∧ e.fin < 2 ^ 16 ∧ e.count < 2 ^ 32 ∧ e.index < 2 ^ 32) → (∀ k, c.pline = some k → k < 512) →
    let r := (c.catchRecord t now tcyc rpc fl reason second).restoreSeq (if second then 0x200 else 0)
    r.pc = rpc ∧ r.dly = c.dly ∧ r.dtgt = c.dtgt ∧ r.loops = c.loops ∧ r.litPaid = decide (fl % 2 = 1) ∧ r.pline = c.pline

/-! ### Reset, the step, and encodings -/

/-- R32, R40, R52, R112, R113, R136: right after power-on reset bring-up is at stage 0: no BAR0 register answers, no field is live,
no memory lists anything, one power-on reset is counted, and COL_BUDGET, TOR_HOP and the two numbers that no step takes back
stand within their limits.  The model's own choices are that a package's non-volatile store starts empty (log entry
33), that what nothing has written reads zero (log entry 3), and that this is the first power-on reset, counted already (log entry 6). -/
def Obligations.ResetLeaves : Prop :=
  State.reset.hport.stage = 0 ∧ State.reset.pkg.powered = true ∧ State.reset.pkg.ready = false ∧ State.reset.torus.timed = false ∧
  State.reset.fields = [] ∧ State.reset.tiles = [] ∧ State.reset.ctxs = [] ∧ State.reset.dies = [] ∧ State.reset.cmds = [] ∧
  (∀ o, State.reset.bar0 o = 0) ∧ State.reset.sb.value 1 = 1 ∧ (∀ i, i ≠ 1 → State.reset.sb.value i = 0) ∧
  State.reset.Bounded ∧ (∀ t h, State.reset.ctx t h = Ctx.idle) ∧ Ctx.idle.smap = 1 ∧ Ctx.idle.gscope = 5 ∧ Ctx.idle.sys = false

/-- R12, R171, R182, R187, R205, R206, R323, R324: one step.  What is due before the outside comes first, then an input of the outside,
then what is due before issue, then the first context with something to do, then what is due after issue, then the end of the cycle.
Where the selected context's PC holds a bundle of one slot that decodes to an instruction, the step is that instruction's own effect
and then the end of the bundle; where the instruction traps, no part of it acts and the trap is taken instead.
How the step divides a cycle (log entry 82) and orders what falls in one (log entry 81) is the model's own choice where R14, R187, R204,
R252 and R271 leave it open. -/
def Obligations.AStepRunsTheDecodedInstruction : Prop :=
  ∀ (s : State),
    let runs (d : Due) : Prop := step s = exec d.ev { s with agenda := dropFirst d s.agenda, selPch := d.sel }
    (∀ d, s.dueFirst = some d → runs d) ∧
    (s.dueFirst = none → ∀ x r, takeInput s.now s.inputs = some (x, r) → step s = s.runInput x r) ∧
    (s.dueFirst = none → takeInput s.now s.inputs = none → ∀ d, s.dueEvent true = some d → runs d) ∧
    (s.dueFirst = none → takeInput s.now s.inputs = none → s.dueEvent true = none → s.nextTurn s.issuePlaces = none →
      (∀ d, s.dueEvent false = some d → runs d) ∧
      (s.dueEvent false = none → step s = .next s.endCycle ∧ s.endCycle.now = s.now + 1)) ∧
    (s.dueFirst = none → takeInput s.now s.inputs = none → s.dueEvent true = none →
      ∀ p t h, s.nextTurn s.issuePlaces = some (p, .issue t h) →
      let c := s.ctx t h
      let u := ({ s with scan := p + 1 } : State).modTile t (fun x => { x with running := x.running.insert (s.field c.fieldNum).member h })
      let b := u.begin t h
      u.wholeService t c = false → c.back = false → c.atBreakpoint = false → ∀ n, u.fetch t c = .bundle n →
        (decodeBundle n = .ok [] → step s = .next (b.finish (!c.sys) b.nextId)) ∧
        (∀ e, decodeBundle n = .error e → step s = .next (b.trapped ⟨1, 1, 0, 0, n / 2 ^ 320⟩)) ∧
        ∀ k i, decodeBundle n = .ok [(k, .ok i)] → b.cc.wholeTrap [⟨k, containerOf n k, .ok i⟩] = none → ∀ v, exec i b = .next v →
          (v.cur.trap = none → capacityTrap b v = none → step s = .next (v.finish (!b.cc.sys) b.nextId)) ∧
          (∀ tr, v.cur.trap = some tr → bitAt tr.info2 15 = false → step s = .next (b.trapped tr)))

/-- R338, R339, R341, R346 to R348, R350 to R356: words written out field by field from the encoding tables decode to the instructions
they stand for, and the bundle of no slot is the empty bundle. -/
def Obligations.SpecWordsDecode : Prop :=
  decodeOne 0 = .ok .emptyBundle ∧
  decodeOne (2 ^ 376 + (0x01 * 2 ^ 57 + 2 * 2 ^ 53 + 3 * 2 ^ 48 + 4 * 2 ^ 43 + 0 * 2 ^ 42 + 5 * 2 ^ 37) * 2 ^ 48)
    = .ok (.addReg ⟨false, 2⟩ 3 4 5) ∧
  decodeOne (2 ^ 376 + (0x0F * 2 ^ 57 + 9 * 2 ^ 53 + 1 * 2 ^ 50 + 6 * 2 ^ 45 + 7 * 2 ^ 40 + 1 * 2 ^ 39 + 100) * 2 ^ 48)
    = .ok (.cmpImm ⟨true, 1⟩ 1 6 7 100) ∧
  decodeOne (2 ^ 375 + (0x01 * 2 ^ 43 + 0 * 2 ^ 39 + 2 * 2 ^ 35 + 3 * 2 ^ 31 + 1 * 2 ^ 30 + 9))
    = .ok (.aaddImm ⟨false, 0⟩ 2 3 9) ∧
  decodeOne (2 ^ 379 + (0x01 * 2 ^ 57 + 0 * 2 ^ 53 + 8 * 2 ^ 47 + 9 * 2 ^ 38 + 10 * 2 ^ 29 + 0 * 2 ^ 20 + 1 * 2 ^ 18) * 2 ^ 240)
    = .ok (.vadd ⟨false, ⟨false, 0⟩⟩ 8 (.tile false 9) (.src (.tile false 10)) 1 false) ∧
  decodeOne (2 ^ 380 + (0x07 * 2 ^ 57 + 0 * 2 ^ 53 + 4 * 2 ^ 47 + 5 * 2 ^ 41) * 2 ^ 304) = .ok (.aclr ⟨false, 0⟩ 4 5) ∧
  decodeOne (2 ^ 377 + (0x12 * 2 ^ 57 + 0 * 2 ^ 53 + 3 * 2 ^ 48 + 4 * 2 ^ 43 + 7 * 2 ^ 39) * 2 ^ 112) = .ok (.fence ⟨false, 0⟩ 3 4 7) ∧
  decodeOne (2 ^ 376 + 0x7F * 2 ^ 57 * 2 ^ 48) = .error .unassigned ∧
  decodeOne (2 ^ 376 + (0x01 * 2 ^ 57 + 1) * 2 ^ 48) = .error .zeroBits ∧
  (∀ n, fld n 381 3 ≠ 0 → decodeOne n = .error .header)

/-- The slot of an instruction (R338, R350 to R355); none for EMPTY_BUNDLE and for the package's events. -/
def slotOf : Instr → Option Slot
  | .addReg .. | .addImm .. | .subReg .. | .subImm .. | .mulReg .. | .mulImm .. | .mulhReg .. | .mulhImm .. | .andReg .. | .andImm ..
  | .orReg .. | .orImm .. | .xorReg .. | .xorImm .. | .shlReg .. | .shlImm .. | .shrReg .. | .shrImm .. | .sraReg .. | .sraImm ..
  | .minReg .. | .minImm .. | .maxReg .. | .maxImm .. | .bitc .. | .li .. | .cmpReg .. | .cmpImm .. | .plog .. | .sel .. | .br ..
  | .jmpLabel .. | .jmpReg .. | .callLabel .. | .callReg .. | .ret .. | .loopReg .. | .loopImm .. | .lbrk .. | .waitImm .. | .waitReg ..
  | .waitTcyc .. | .phase .. | .pass .. | .passCycleReg .. | .yield .. | .yieldField .. | .view .. | .viewCopy .. | .viewBase ..
  | .viewGen .. | .gets .. | .setsReg .. | .setsImm .. | .setsOr .. | .setsClr .. | .trap .. | .tret .. | .uiret .. | .done .. => some .s
  | .aaddReg .. | .aaddImm .. | .ali .. | .amovToA .. | .amovToS .. | .acfgLin .. | .acfgMod .. | .acfgBrev .. | .lidx .. | .pf .. => some .g
  | .vadd h .. | .vsub h .. | .vmul h .. | .vfma h .. | .vmin h .. | .vmax h .. | .vdiv h .. | .vsqrt h .. | .vrsq h .. | .vexp2 h ..
  | .vlog2 h .. | .vcvt h .. | .vmov h .. | .vsplat h .. | .vsel h .. | .vand h .. | .vor h .. | .vxor h .. | .vshlTile h ..
  | .vshlScalar h .. | .vshlImm h .. | .vshrTile h .. | .vshrScalar h .. | .vshrImm h .. | .vcmp h .. | .vmskPre h .. | .vmskRect h ..
  | .vmskRng h .. | .vpop h .. | .vextImm h .. | .vextReg h .. | .vrotr h .. | .vrotc h .. | .vbcr h .. | .vbcc h .. | .vshuf h ..
  | .vredr h .. | .vredc h .. | .vshpType h .. | .vshpKeep h .. | .vshpReg h .. | .vqlt h .. | .vqltOffsets h .. | .vboff h .. =>
    some (if h.v1 then .v1 else .v0)
  | .amodeNorm .. | .amodeSplit .. | .wload .. | .wloadg .. | .wloadgImg .. | .stream .. | .streamt .. | .drain .. | .aclr .. | .wstore ..
  | .wstorePlane .. | .cbld .. | .cbldRestore .. | .cbflip .. | .cbst .. => some .a
  | .lds .. | .sts .. | .tld .. | .tst .. | .atom .. | .atomt .. | .stash .. | .stashOff .. | .hintReq .. | .hintFill .. | .hintDrop ..
  | .hintL2 .. | .cpy .. | .cpyzSt .. | .cpyzLd .. | .msend .. | .mrecv .. | .lsend .. | .lrecv .. | .lred .. | .lbcst .. | .bcall ..
  | .fence .. | .vjoin .. | .tlbinv .. | .tlbinvDie .. | .csaveCtx .. | .csaveTile .. | .csaveBlk .. | .csaveCode .. | .cloadCtx ..
  | .cloadTile .. | .cloadBlk .. | .cloadCode .. => some .m
  | _ => none

/-- R338 to R357: the decoder gives back every well-formed instruction of a slot from the bundle that the encoder makes of it, with
every operand at every value that its encoding admits; every well-formed instruction of a slot encodes, and no other but EMPTY_BUNDLE;
so does every bundle of well-formed instructions, at most one in each slot, and it decodes to them in the order of the slots. -/
def Obligations.DecodeOfEncode : Prop :=
  (∀ (i : Instr) (n : Nat), i.wf = true → encodeNat i = some n → decodeOne n = .ok i ∧ n < 2 ^ 384) ∧
  (∀ (i : Instr) (sl : Slot), i.wf = true → slotOf i = some sl → ∃ n, encodeNat i = some n ∧ decodeBundle n = .ok [(sl, .ok i)]) ∧
  (∀ i : Instr, slotOf i = none → i ≠ .emptyBundle → encodeNat i = none) ∧
  ∀ f : Slot → Option Instr, (∀ sl i, f sl = some i → i.wf = true ∧ slotOf i = some sl) →
    ∃ n, encodeBundle (slotOrder.filterMap f) = some n ∧ n < 2 ^ 384 ∧
      decodeBundle n = .ok (slotOrder.filterMap (fun sl => (f sl).map (fun i => (sl, .ok i))))

/-- Every instruction answers a next state, whatever the state, and within the device cycle in which it began: a cycle ends only when
nothing is left to happen in it.
That a step is one thing that happens and that no step of an instruction ends the cycle is the model's own choice (log entry 82); no rule
says it. -/
def Obligations.EveryInstructionAnswers : Prop :=
  ∀ (i : Instr) (s : State), ∃ t, exec i s = .next t ∧ t.now = s.now

/-- R32, R39, R52, R112: a step always answers a next state; it keeps COL_BUDGET and TOR_HOP within their limits, and takes back
neither time, nor DEV_COMMITSVN's number, nor a committed Scorebook counter. -/
def Obligations.AStepKeepsTheLimits : Prop :=
  ∀ s : State, s.Bounded → ∃ t, step s = .next t ∧ t.Bounded ∧ s.Onward t
end

