-- ==== Sys2Proof/Laws/Data.lean ====
section
/-! SUPPORT. Laws of sparse tables, memories and byte order: what a read gives after a write, and the canonical form. -/

namespace Sys2Proof

/-! ## Tables -/

theorem Table.rd_insert {α : Type} (d : α) (t : Table α) (k x : Nat) (v : α) :
    (t.insert k v).rd d x = if x = k then v else t.rd d x := by
  induction t with
  | nil => rfl
  | cons e t ih =>
    obtain ⟨j, w⟩ := e
    simp only [Table.insert]
    split
    · rfl
    · split
      · next h => subst h; simp only [Table.rd]; split <;> rfl
      · next h =>
        simp only [Table.rd, ih]
        by_cases hx : x = j
        · subst hx; simp [Ne.symm h]
        · simp [hx]

theorem Table.rd_remove {α : Type} (d : α) (t : Table α) (k x : Nat) :
    (t.remove k).rd d x = if x = k then d else t.rd d x := by
  induction t with
  | nil => simp [Table.remove, Table.rd]
  | cons e t ih =>
    obtain ⟨j, w⟩ := e
    simp only [Table.remove]
    split
    · next h => subst h; simp only [Table.rd, ih]; split <;> rfl
    · next h =>
      simp only [Table.rd, ih]
      by_cases hx : x = j
      · subst hx; simp [Ne.symm h]
      · simp [hx]

theorem Table.rd_wr {α : Type} [DecidableEq α] (d : α) (t : Table α) (k x : Nat) (v : α) :
    (t.wr d k v).rd d x = if x = k then v else t.rd d x := by
  unfold Table.wr
  split
  · next h => subst h; exact Table.rd_remove ..
  · exact Table.rd_insert ..

@[simp] theorem Table.rd_insert_self {α : Type} (d : α) (t : Table α) (k : Nat) (v : α) : (t.insert k v).rd d k = v := by
  simp [Table.rd_insert]

theorem Table.rd_insert_ne {α : Type} (d : α) (t : Table α) (k x : Nat) (v : α) (h : x ≠ k) :
    (t.insert k v).rd d x = t.rd d x := by
  simp [Table.rd_insert, h]

theorem Table.find_insert {α : Type} (t : Table α) (k x : Nat) (v : α) :
    (t.insert k v).find x = if x = k then some v else t.find x := by
  induction t with
  | nil => rfl
  | cons e t ih =>
    obtain ⟨j, w⟩ := e
    simp only [Table.insert]
    split
    · rfl
    · split
      · next h => subst h; simp only [Table.find]; split <;> rfl
      · next h =>
        simp only [Table.find, ih]
        by_cases hx : x = j
        · subst hx; simp [Ne.symm h]
        · simp [hx]

/-! ## The canonical form of a table -/

theorem Table.risesFrom_mono {α : Type} (t : Table α) (a b : Nat) (h : t.risesFrom b = true) (hab : a ≤ b) :
    t.risesFrom a = true := by
  cases t with
  | nil => rfl
  | cons e t =>
    obtain ⟨k, v⟩ := e
    simp only [Table.risesFrom, Bool.and_eq_true, decide_eq_true_eq] at h ⊢
    exact ⟨Nat.le_trans hab h.1, h.2⟩

theorem Table.risesFrom_insert {α : Type} (t : Table α) (lo k : Nat) (v : α) (h : t.risesFrom lo = true) (hk : lo ≤ k) :
    (t.insert k v).risesFrom lo = true := by
  induction t generalizing lo with
  | nil => simp [Table.insert, Table.risesFrom, hk]
  | cons e t ih =>
    obtain ⟨j, w⟩ := e
    simp only [Table.risesFrom, Bool.and_eq_true, decide_eq_true_eq] at h
    simp only [Table.insert]
    split
    · simp [Table.risesFrom, hk, h.2]; omega
    · split
      · next hj => subst hj; simp [Table.risesFrom, h]
      · simp only [Table.risesFrom, Bool.and_eq_true, decide_eq_true_eq]
        exact ⟨h.1, ih (j + 1) h.2 (by omega)⟩

theorem Table.risesFrom_remove {α : Type} (t : Table α) (lo k : Nat) (h : t.risesFrom lo = true) :
    (t.remove k).risesFrom lo = true := by
  induction t generalizing lo with
  | nil => rfl
  | cons e t ih =>
    obtain ⟨j, w⟩ := e
    simp only [Table.risesFrom, Bool.and_eq_true, decide_eq_true_eq] at h
    simp only [Table.remove]
    split
    · exact ih lo (Table.risesFrom_mono _ _ _ h.2 (by omega))
    · simp only [Table.risesFrom, Bool.and_eq_true, decide_eq_true_eq]
      exact ⟨h.1, ih _ h.2⟩

theorem Table.all_insert {α : Type} (p : Nat × α → Bool) (t : Table α) (k : Nat) (v : α) (h : t.all p = true)
    (hv : p (k, v) = true) : (t.insert k v).all p = true := by
  induction t with
  | nil => simp [Table.insert, hv]
  | cons e t ih =>
    obtain ⟨j, w⟩ := e
    simp only [List.all_cons, Bool.and_eq_true] at h
    simp only [Table.insert]
    split
    · simp [hv, h.1]; simpa using h.2
    · split
      · simp [hv]; simpa using h.2
      · simp only [List.all_cons, Bool.and_eq_true]; exact ⟨h.1, ih h.2⟩

theorem Table.all_remove {α : Type} (p : Nat × α → Bool) (t : Table α) (k : Nat) (h : t.all p = true) :
    (t.remove k).all p = true := by
  induction t with
  | nil => rfl
  | cons e t ih =>
    obtain ⟨j, w⟩ := e
    simp only [List.all_cons, Bool.and_eq_true] at h
    simp only [Table.remove]
    split
    · exact ih h.2
    · simp only [List.all_cons, Bool.and_eq_true]; exact ⟨h.1, ih h.2⟩

theorem Table.wf_wr {α : Type} [DecidableEq α] (d : α) (t : Table α) (k : Nat) (v : α) (h : t.wf d = true) :
    (t.wr d k v).wf d = true := by
  simp only [Table.wf, Bool.and_eq_true] at h ⊢
  unfold Table.wr
  split
  · exact ⟨Table.risesFrom_remove _ _ _ h.1, Table.all_remove _ _ _ h.2⟩
  · next hv => exact ⟨Table.risesFrom_insert _ _ _ _ h.1 (Nat.zero_le _), Table.all_insert _ _ _ _ h.2 (by simp [hv])⟩

/-- Below its first key a rising table reads its default. -/
theorem Table.rd_below {α : Type} (d : α) (t : Table α) (lo k : Nat) (h : t.risesFrom lo = true) (hk : k < lo) :
    t.rd d k = d := by
  induction t generalizing lo with
  | nil => rfl
  | cons e t ih =>
    obtain ⟨j, w⟩ := e
    simp only [Table.risesFrom, Bool.and_eq_true, decide_eq_true_eq] at h
    have hj : k ≠ j := by omega
    simp only [Table.rd, if_neg hj]
    exact ih (j + 1) h.2 (by omega)

/-- Two tables in canonical form that read alike are the same data. -/
theorem Table.wf_ext {α : Type} [DecidableEq α] (d : α) (t u : Table α) (lo : Nat) (ht : t.risesFrom lo = true)
    (hu : u.risesFrom lo = true) (at_ : t.all (fun e => decide (e.2 ≠ d)) = true)
    (au : u.all (fun e => decide (e.2 ≠ d)) = true) (h : ∀ k, t.rd d k = u.rd d k) : t = u := by
  induction t generalizing u lo with
  | nil =>
    cases u with
    | nil => rfl
    | cons f u =>
      obtain ⟨j, w⟩ := f
      have := h j
      simp [Table.rd] at this au
      exact absurd this.symm au.1
  | cons e t ih =>
    obtain ⟨i, v⟩ := e
    simp only [Table.risesFrom, Bool.and_eq_true, decide_eq_true_eq] at ht
    simp only [List.all_cons, Bool.and_eq_true, decide_eq_true_eq] at at_
    cases u with
    | nil =>
      have := h i
      simp [Table.rd] at this
      exact absurd this at_.1
    | cons f u =>
      obtain ⟨j, w⟩ := f
      simp only [Table.risesFrom, Bool.and_eq_true, decide_eq_true_eq] at hu
      simp only [List.all_cons, Bool.and_eq_true, decide_eq_true_eq] at au
      have hij : i = j := by
        rcases Nat.lt_trichotomy i j with hl | he | hg
        · have := h i
          have hne : i ≠ j := by omega
          simp only [Table.rd, if_true, if_neg hne] at this
          rw [Table.rd_below d u (j + 1) i hu.2 (by omega)] at this
          exact absurd this at_.1
        · exact he
        · have := h j
          have hne : j ≠ i := by omega
          simp only [Table.rd, if_true, if_neg hne] at this
          rw [Table.rd_below d t (i + 1) j ht.2 (by omega)] at this
          exact absurd this.symm au.1
      subst hij
      have hvw : v = w := by have := h i; simpa [Table.rd] using this
      subst hvw
      have : t = u := by
        refine ih u (i + 1) ht.2 hu.2 at_.2 au.2 (fun k => ?_)
        by_cases hk : k = i
        · subst hk
          rw [Table.rd_below d t (k + 1) k ht.2 (by omega), Table.rd_below d u (k + 1) k hu.2 (by omega)]
        · have := h k
          simpa [Table.rd, hk] using this
      rw [this]

/-! ## Memories -/

theorem Mem.byte_setByte (m : Mem) (a x : Nat) (b : Byte) : (m.setByte a b).byte x = if x = a then b else m.byte x :=
  Table.rd_wr ..

theorem Mem.byte_setBytes (m : Mem) (a x : Nat) (bs : List Byte) :
    (m.setBytes a bs).byte x = if a ≤ x ∧ x < a + bs.length then bs.getD (x - a) 0 else m.byte x := by
  induction bs generalizing m a with
  | nil => simp only [Mem.setBytes, List.length_nil]; rw [if_neg]; omega
  | cons b bs ih =>
    simp only [Mem.setBytes, ih, Mem.byte_setByte, List.length_cons]
    by_cases h : x = a
    · subst h
      rw [if_neg (by omega), if_pos rfl, if_pos (by omega)]; simp
    · by_cases h2 : a + 1 ≤ x ∧ x < a + 1 + bs.length
      · rw [if_pos h2, if_pos (by omega)]
        obtain ⟨k, rfl⟩ : ∃ k, x = a + 1 + k := ⟨x - a - 1, by omega⟩
        have e1 : a + 1 + k - (a + 1) = k := by omega
        have e2 : a + 1 + k - a = k + 1 := by omega
        rw [e1, e2, List.getD_cons_succ]
      · rw [if_neg h2, if_neg h, if_neg (by omega)]

/-- A byte that no cell names keeps its value. -/
theorem Mem.byte_setCells_other (m : Mem) (cs : List (Nat × Byte)) (x : Nat) (h : ∀ c ∈ cs, c.1 ≠ x) :
    (Mem.setCells m cs).byte x = m.byte x := by
  induction cs generalizing m with
  | nil => rfl
  | cons c cs ih =>
    simp only [Mem.setCells]
    rw [ih _ (fun d hd => h d (List.mem_cons_of_mem _ hd)), Mem.byte_setByte,
      if_neg (fun e => h c (List.mem_cons_self ..) e.symm)]

/-- Cells numbered from an address are a run of bytes. -/
theorem Mem.setCells_numbered (m : Mem) (a : Nat) (bs : List Byte) : Mem.setCells m (numbered a bs) = m.setBytes a bs := by
  induction bs generalizing m a with
  | nil => rfl
  | cons b bs ih => simp only [numbered, Mem.setCells, Mem.setBytes, ih]

theorem Mem.wf_setByte (m : Mem) (a : Nat) (b : Byte) (h : m.wf = true) : (m.setByte a b).wf = true := Table.wf_wr _ _ _ _ h

theorem Mem.wf_setBytes (m : Mem) (a : Nat) (bs : List Byte) (h : m.wf = true) : (m.setBytes a bs).wf = true := by
  induction bs generalizing m a with
  | nil => exact h
  | cons b bs ih => exact ih _ _ (Mem.wf_setByte m a b h)

theorem Mem.wf_setCells (m : Mem) (cs : List (Nat × Byte)) (h : m.wf = true) : (Mem.setCells m cs).wf = true := by
  induction cs generalizing m with
  | nil => exact h
  | cons c cs ih => exact ih _ (Mem.wf_setByte m c.1 c.2 h)

theorem Mem.wf_setNum (m : Mem) (a n v : Nat) (h : m.wf = true) : (m.setNum a n v).wf = true := Mem.wf_setBytes m a _ h

theorem Mem.wf_empty : Mem.wf [] = true := rfl

/-! ## Byte order -/

@[simp] theorem leBytes_length (n v : Nat) : (leBytes n v).length = n := by
  induction n generalizing v with
  | zero => rfl
  | succ n ih => simp [leBytes, ih]

theorem leNat_leBytes (n v : Nat) : leNat (leBytes n v) = v % 256 ^ n := by
  induction n generalizing v with
  | zero => simp [leBytes, leNat, Nat.mod_one]
  | succ n ih =>
    simp only [leBytes, leNat, ih, BitVec.toNat_ofNat]
    have e : 2 ^ 8 = 256 := rfl
    rw [e, Nat.pow_succ, Nat.mul_comm (256 ^ n) 256, Nat.mod_mul]

@[simp] theorem Mem.bytes_length (m : Mem) (a n : Nat) : (m.bytes a n).length = n := by
  induction n generalizing a with
  | zero => rfl
  | succ n ih => simp [Mem.bytes, ih]

theorem Mem.bytes_setBytes_self (m : Mem) (a : Nat) (bs : List Byte) : (m.setBytes a bs).bytes a bs.length = bs := by
  have gen : ∀ (k : Nat) (cs : List Byte), cs = bs.drop k → k ≤ bs.length →
      Mem.bytes (m.setBytes a bs) (a + k) cs.length = cs := by
    intro k cs
    induction cs generalizing k with
    | nil => intros; rfl
    | cons c cs ih =>
      intro h hk
      have hlt : k < bs.length := by
        rcases Nat.lt_or_ge k bs.length with h' | h'
        · exact h'
        · rw [List.drop_eq_nil_of_le h'] at h; cases h
      have hd := List.drop_eq_getElem_cons hlt
      rw [hd] at h
      injection h with h1 h2
      simp only [List.length_cons, Mem.bytes]
      rw [Mem.byte_setBytes, if_pos (by omega)]
      have e : a + k - a = k := by omega
      rw [e, Nat.add_assoc, ih (k + 1) h2 (by omega)]
      congr 1
      rw [h1, List.getD_eq_getElem?_getD, List.getElem?_eq_getElem hlt]
      rfl
  simpa using gen 0 bs rfl (Nat.zero_le _)

theorem Mem.num_setNum (m : Mem) (a n v : Nat) (h : v < 256 ^ n) : (m.setNum a n v).num a n = v := by
  unfold Mem.setNum Mem.num
  have := Mem.bytes_setBytes_self m a (leBytes n v)
  rw [leBytes_length] at this
  rw [this, leNat_leBytes, Nat.mod_eq_of_lt h]

end Sys2Proof
end

