-- ==== Sys2Proof/Laws/Exec.lean ====
section
/-! SUPPORT. Each arm of `exec`, as a rewriting rule: it runs the meaning of its constructor. -/

namespace Sys2Proof.Machine

variable (s : State)

@[simp] theorem exec_selfTest (x0 : List Finding) : exec (.selfTest x0) s = execSelfTest x0 s := rfl
@[simp] theorem exec_bringupConfig (x0 : FwSupply) : exec (.bringupConfig x0) s = execBringupConfig x0 s := rfl
@[simp] theorem exec_tempSample (x0 : List (Nat × Int)) : exec (.tempSample x0) s = execTempSample x0 s := rfl
@[simp] theorem exec_droopWarning (x0 : BitVec 2) : exec (.droopWarning x0) s = execDroopWarning x0 s := rfl
@[simp] theorem exec_droopFailure (x0 : BitVec 2) : exec (.droopFailure x0) s = execDroopFailure x0 s := rfl
@[simp] theorem exec_uncorrectableError (x0 : ErrSite) : exec (.uncorrectableError x0) s = execUncorrectableError x0 s := rfl
@[simp] theorem exec_controlStoreError (x0 : BitVec 9) (x1 : Bool) :
    exec (.controlStoreError x0 x1) s = execControlStoreError x0 x1 s := rfl
@[simp] theorem exec_colBudgetWrite (x0 : W32) : exec (.colBudgetWrite x0) s = execColBudgetWrite x0 s := rfl
@[simp] theorem exec_passAnswer (x0 : BitVec 8) (x1 : BitVec 2) (x2 : Nat) :
    exec (.passAnswer x0 x1 x2) s = execPassAnswer x0 x1 x2 s := rfl
@[simp] theorem exec_portTrainingDone (x0 : BitVec 3) (x1 : Training) :
    exec (.portTrainingDone x0 x1) s = execPortTrainingDone x0 x1 s := rfl
@[simp] theorem exec_torHopWrite (x0 : W32) : exec (.torHopWrite x0) s = execTorHopWrite x0 s := rfl
@[simp] theorem exec_timeFlitReceive (x0 : BitVec 3) (x1 : Option (List Byte)) (x2 : Nat) :
    exec (.timeFlitReceive x0 x1 x2) s = execTimeFlitReceive x0 x1 x2 s := rfl
@[simp] theorem exec_dataFlitReceive (x0 : BitVec 3) (x1 : FlitPlace) (x2 : Option (List Byte)) :
    exec (.dataFlitReceive x0 x1 x2) s = execDataFlitReceive x0 x1 x2 s := rfl
@[simp] theorem exec_portRetrain (x0 : BitVec 3) : exec (.portRetrain x0) s = execPortRetrain x0 s := rfl
@[simp] theorem exec_linkTransferStart (x0 : BitVec 8) (x1 : Nat) :
    exec (.linkTransferStart x0 x1) s = execLinkTransferStart x0 x1 s := rfl
@[simp] theorem exec_lsendComplete (x0 : BitVec 8) (x1 : Nat) :
    exec (.lsendComplete x0 x1) s = execLsendComplete x0 x1 s := rfl
@[simp] theorem exec_lrecvComplete (x0 : BitVec 8) (x1 : Nat) :
    exec (.lrecvComplete x0 x1) s = execLrecvComplete x0 x1 s := rfl
@[simp] theorem exec_lredComplete (x0 : BitVec 8) (x1 : Nat) : exec (.lredComplete x0 x1) s = execLredComplete x0 x1 s := rfl
@[simp] theorem exec_lbcstComplete (x0 : BitVec 8) (x1 : Nat) :
    exec (.lbcstComplete x0 x1) s = execLbcstComplete x0 x1 s := rfl
@[simp] theorem exec_bcallArrive (x0 : Nat) : exec (.bcallArrive x0) s = execBcallArrive x0 s := rfl
@[simp] theorem exec_callStart (x0 : BitVec 9) (x1 : Nat) : exec (.callStart x0 x1) s = execCallStart x0 x1 s := rfl
@[simp] theorem exec_microwordStep (x0 : BitVec 9) (x1 : Option (BitVec 4 × Nat)) :
    exec (.microwordStep x0 x1) s = execMicrowordStep x0 x1 s := rfl
@[simp] theorem exec_hbmStandardAccess (x0 : BitVec 9) (x1 : BitVec 4) (x2 : Nat) (x3 : Bool) (x4 : Option (BitVec 8 × BitVec 2)) (x5 : W64) :
    exec (.hbmStandardAccess x0 x1 x2 x3 x4 x5) s = execHbmStandardAccess x0 x1 x2 x3 x4 x5 s := rfl
@[simp] theorem exec_bar0BadAccess (x0 : Nat) (x1 : Nat) : exec (.bar0BadAccess x0 x1) s = execBar0BadAccess x0 x1 s := rfl
@[simp] theorem exec_registerWrite (x0 : BitVec 26) (x1 : BarData) :
    exec (.registerWrite x0 x1) s = execRegisterWrite x0 x1 s := rfl
@[simp] theorem exec_qCtlWrite (x0 : BitVec 10) (x1 : W32) : exec (.qCtlWrite x0 x1) s = execQCtlWrite x0 x1 s := rfl
@[simp] theorem exec_qReset (x0 : BitVec 10) (x1 : W32) : exec (.qReset x0 x1) s = execQReset x0 x1 s := rfl
@[simp] theorem exec_qKick (x0 : BitVec 10) (x1 : W32) : exec (.qKick x0 x1) s = execQKick x0 x1 s := rfl
@[simp] theorem exec_slotRead (x0 : BitVec 10) : exec (.slotRead x0) s = execSlotRead x0 s := rfl
@[simp] theorem exec_sealTimeout (x0 : BitVec 10) : exec (.sealTimeout x0) s = execSealTimeout x0 s := rfl
@[simp] theorem exec_packetStart (x0 : BitVec 10) : exec (.packetStart x0) s = execPacketStart x0 s := rfl
@[simp] theorem exec_copyComplete (x0 : Nat) (x1 : Table Byte) :
    exec (.copyComplete x0 x1) s = execCopyComplete x0 x1 s := rfl
@[simp] theorem exec_evHostWrite (x0 : BitVec 12) (x1 : W32) : exec (.evHostWrite x0 x1) s = execEvHostWrite x0 x1 s := rfl
@[simp] theorem exec_stagingRead (x0 : BitVec 30) (x1 : Nat) : exec (.stagingRead x0 x1) s = execStagingRead x0 x1 s := rfl
@[simp] theorem exec_stagingWrite (x0 : BitVec 30) (x1 : List Byte) :
    exec (.stagingWrite x0 x1) s = execStagingWrite x0 x1 s := rfl
@[simp] theorem exec_fqConsWrite (x0 : W32) : exec (.fqConsWrite x0) s = execFqConsWrite x0 s := rfl
@[simp] theorem exec_imageLoaded (x0 : Half) (x1 : Table Byte) : exec (.imageLoaded x0 x1) s = execImageLoaded x0 x1 s := rfl
@[simp] theorem exec_fieldStart (x0 : Half) : exec (.fieldStart x0) s = execFieldStart x0 s := rfl
@[simp] theorem exec_freeze (x0 : Half) : exec (.freeze x0) s = execFreeze x0 s := rfl
@[simp] theorem exec_fieldQuiet (x0 : Half) : exec (.fieldQuiet x0) s = execFieldQuiet x0 s := rfl
@[simp] theorem exec_savesComplete (x0 : Half) : exec (.savesComplete x0) s = execSavesComplete x0 s := rfl
@[simp] theorem exec_restoreComplete (x0 : Half) : exec (.restoreComplete x0) s = execRestoreComplete x0 s := rfl
@[simp] theorem exec_fieldResume (x0 : Half) : exec (.fieldResume x0) s = execFieldResume x0 s := rfl
@[simp] theorem exec_windowDrowsy (x0 : BitVec 8) (x1 : BitVec 2) :
    exec (.windowDrowsy x0 x1) s = execWindowDrowsy x0 x1 s := rfl
@[simp] theorem exec_fieldComplete (x0 : Half) : exec (.fieldComplete x0) s = execFieldComplete x0 s := rfl
@[simp] theorem exec_noticePlaced (x0 : BitVec 3) (x1 : List Byte) :
    exec (.noticePlaced x0 x1) s = execNoticePlaced x0 x1 s := rfl
@[simp] theorem exec_noticeFreeze (x0 : BitVec 3) (x1 : List Byte) :
    exec (.noticeFreeze x0 x1) s = execNoticeFreeze x0 x1 s := rfl
@[simp] theorem exec_noticeResume (x0 : BitVec 3) (x1 : List Byte) :
    exec (.noticeResume x0 x1) s = execNoticeResume x0 x1 s := rfl
@[simp] theorem exec_noticeArrived (x0 : BitVec 3) (x1 : List Byte) :
    exec (.noticeArrived x0 x1) s = execNoticeArrived x0 x1 s := rfl
@[simp] theorem exec_noticeDone (x0 : BitVec 3) (x1 : List Byte) : exec (.noticeDone x0 x1) s = execNoticeDone x0 x1 s := rfl
@[simp] theorem exec_arrivedNoticeResend (x0 : DomKey) :
    exec (.arrivedNoticeResend x0) s = execArrivedNoticeResend x0 s := rfl
@[simp] theorem exec_phaseRelease (x0 : DomKey) : exec (.phaseRelease x0) s = execPhaseRelease x0 s := rfl
@[simp] theorem exec_resultLanding (x0 : BitVec 8) (x1 : BitVec 2) (x2 : Nat) :
    exec (.resultLanding x0 x1 x2) s = execResultLanding x0 x1 x2 s := rfl
@[simp] theorem exec_reportedTrapTake (x0 : BitVec 8) (x1 : BitVec 2) :
    exec (.reportedTrapTake x0 x1) s = execReportedTrapTake x0 x1 s := rfl
@[simp] theorem exec_protViolationReport (x0 : Nat) : exec (.protViolationReport x0) s = execProtViolationReport x0 s := rfl
@[simp] theorem exec_uiEntry (x0 : BitVec 8) (x1 : BitVec 2) : exec (.uiEntry x0 x1) s = execUiEntry x0 x1 s := rfl
@[simp] theorem exec_engineStart (x0 : BitVec 8) (x1 : Engine) (x2 : Nat) :
    exec (.engineStart x0 x1 x2) s = execEngineStart x0 x1 x2 s := rfl
@[simp] theorem exec_streamRowAdmit (x0 : BitVec 8) (x1 : Nat) (x2 : Nat) :
    exec (.streamRowAdmit x0 x1 x2) s = execStreamRowAdmit x0 x1 x2 s := rfl
@[simp] theorem exec_accumulatorLanding (x0 : BitVec 8) (x1 : Nat) (x2 : Nat) (x3 : Nat) (x4 : Nat) :
    exec (.accumulatorLanding x0 x1 x2 x3 x4) s = execAccumulatorLanding x0 x1 x2 x3 x4 s := rfl
@[simp] theorem exec_planeWrite (x0 : BitVec 8) (x1 : Nat) : exec (.planeWrite x0 x1) s = execPlaneWrite x0 x1 s := rfl
@[simp] theorem exec_drainWrite (x0 : BitVec 8) (x1 : Nat) : exec (.drainWrite x0 x1) s = execDrainWrite x0 x1 s := rfl
@[simp] theorem exec_aclrWrite (x0 : BitVec 8) (x1 : Nat) : exec (.aclrWrite x0 x1) s = execAclrWrite x0 x1 s := rfl
@[simp] theorem exec_meshBeatSend (x0 : BitVec 8) (x1 : Nat) (x2 : Nat) :
    exec (.meshBeatSend x0 x1 x2) s = execMeshBeatSend x0 x1 x2 s := rfl
@[simp] theorem exec_meshBeatReceive (x0 : BitVec 8) (x1 : Nat) (x2 : Nat) :
    exec (.meshBeatReceive x0 x1 x2) s = execMeshBeatReceive x0 x1 x2 s := rfl
@[simp] theorem exec_homeSliceStoreAccept (x0 : Nat) :
    exec (.homeSliceStoreAccept x0) s = execHomeSliceStoreAccept x0 s := rfl
@[simp] theorem exec_globalLoadComplete (x0 : Nat) (x1 : Table Byte) :
    exec (.globalLoadComplete x0 x1) s = execGlobalLoadComplete x0 x1 s := rfl
@[simp] theorem exec_atomicArrive (x0 : Nat) (x1 : Table Byte) :
    exec (.atomicArrive x0 x1) s = execAtomicArrive x0 x1 s := rfl
@[simp] theorem exec_faultBatchClose (x0 : BitVec 2) : exec (.faultBatchClose x0) s = execFaultBatchClose x0 s := rfl
@[simp] theorem exec_fenceComplete (x0 : Nat) : exec (.fenceComplete x0) s = execFenceComplete x0 s := rfl
@[simp] theorem exec_cpyComplete (x0 : Nat) (x1 : Table Byte) : exec (.cpyComplete x0 x1) s = execCpyComplete x0 x1 s := rfl
@[simp] theorem exec_cpyzComplete (x0 : Nat) (x1 : Table Byte) :
    exec (.cpyzComplete x0 x1) s = execCpyzComplete x0 x1 s := rfl
@[simp] theorem exec_wstoreComplete (x0 : Nat) : exec (.wstoreComplete x0) s = execWstoreComplete x0 s := rfl
@[simp] theorem exec_cbstComplete (x0 : Nat) : exec (.cbstComplete x0) s = execCbstComplete x0 s := rfl
@[simp] theorem exec_hintComplete (x0 : Answer) :
    exec (.hintComplete x0) s = execHintComplete x0 s := rfl
@[simp] theorem exec_tlbInvalidateDone (x0 : Nat) : exec (.tlbInvalidateDone x0) s = execTlbInvalidateDone x0 s := rfl
@[simp] theorem exec_csaveComplete (x0 : Nat) : exec (.csaveComplete x0) s = execCsaveComplete x0 s := rfl
@[simp] theorem exec_cloadComplete (x0 : Answer) :
    exec (.cloadComplete x0) s = execCloadComplete x0 s := rfl
@[simp] theorem exec_addReg (x0 : Guard) (x1 : BitVec 5) (x2 : BitVec 5) (x3 : BitVec 5) :
    exec (.addReg x0 x1 x2 x3) s = execAddReg x0 x1 x2 x3 s := rfl
@[simp] theorem exec_addImm (x0 : Guard) (x1 : BitVec 5) (x2 : BitVec 5) (x3 : BitVec 42) :
    exec (.addImm x0 x1 x2 x3) s = execAddImm x0 x1 x2 x3 s := rfl
@[simp] theorem exec_subReg (x0 : Guard) (x1 : BitVec 5) (x2 : BitVec 5) (x3 : BitVec 5) :
    exec (.subReg x0 x1 x2 x3) s = execSubReg x0 x1 x2 x3 s := rfl
@[simp] theorem exec_subImm (x0 : Guard) (x1 : BitVec 5) (x2 : BitVec 5) (x3 : BitVec 42) :
    exec (.subImm x0 x1 x2 x3) s = execSubImm x0 x1 x2 x3 s := rfl
@[simp] theorem exec_mulReg (x0 : Guard) (x1 : BitVec 5) (x2 : BitVec 5) (x3 : BitVec 5) :
    exec (.mulReg x0 x1 x2 x3) s = execMulReg x0 x1 x2 x3 s := rfl
@[simp] theorem exec_mulImm (x0 : Guard) (x1 : BitVec 5) (x2 : BitVec 5) (x3 : BitVec 42) :
    exec (.mulImm x0 x1 x2 x3) s = execMulImm x0 x1 x2 x3 s := rfl
@[simp] theorem exec_mulhReg (x0 : Guard) (x1 : BitVec 5) (x2 : BitVec 5) (x3 : BitVec 5) :
    exec (.mulhReg x0 x1 x2 x3) s = execMulhReg x0 x1 x2 x3 s := rfl
@[simp] theorem exec_mulhImm (x0 : Guard) (x1 : BitVec 5) (x2 : BitVec 5) (x3 : BitVec 42) :
    exec (.mulhImm x0 x1 x2 x3) s = execMulhImm x0 x1 x2 x3 s := rfl
@[simp] theorem exec_andReg (x0 : Guard) (x1 : BitVec 5) (x2 : BitVec 5) (x3 : BitVec 5) :
    exec (.andReg x0 x1 x2 x3) s = execAndReg x0 x1 x2 x3 s := rfl
@[simp] theorem exec_andImm (x0 : Guard) (x1 : BitVec 5) (x2 : BitVec 5) (x3 : BitVec 42) :
    exec (.andImm x0 x1 x2 x3) s = execAndImm x0 x1 x2 x3 s := rfl
@[simp] theorem exec_orReg (x0 : Guard) (x1 : BitVec 5) (x2 : BitVec 5) (x3 : BitVec 5) :
    exec (.orReg x0 x1 x2 x3) s = execOrReg x0 x1 x2 x3 s := rfl
@[simp] theorem exec_orImm (x0 : Guard) (x1 : BitVec 5) (x2 : BitVec 5) (x3 : BitVec 42) :
    exec (.orImm x0 x1 x2 x3) s = execOrImm x0 x1 x2 x3 s := rfl
@[simp] theorem exec_xorReg (x0 : Guard) (x1 : BitVec 5) (x2 : BitVec 5) (x3 : BitVec 5) :
    exec (.xorReg x0 x1 x2 x3) s = execXorReg x0 x1 x2 x3 s := rfl
@[simp] theorem exec_xorImm (x0 : Guard) (x1 : BitVec 5) (x2 : BitVec 5) (x3 : BitVec 42) :
    exec (.xorImm x0 x1 x2 x3) s = execXorImm x0 x1 x2 x3 s := rfl
@[simp] theorem exec_shlReg (x0 : Guard) (x1 : BitVec 5) (x2 : BitVec 5) (x3 : BitVec 5) :
    exec (.shlReg x0 x1 x2 x3) s = execShlReg x0 x1 x2 x3 s := rfl
@[simp] theorem exec_shlImm (x0 : Guard) (x1 : BitVec 5) (x2 : BitVec 5) (x3 : BitVec 42) :
    exec (.shlImm x0 x1 x2 x3) s = execShlImm x0 x1 x2 x3 s := rfl
@[simp] theorem exec_shrReg (x0 : Guard) (x1 : BitVec 5) (x2 : BitVec 5) (x3 : BitVec 5) :
    exec (.shrReg x0 x1 x2 x3) s = execShrReg x0 x1 x2 x3 s := rfl
@[simp] theorem exec_shrImm (x0 : Guard) (x1 : BitVec 5) (x2 : BitVec 5) (x3 : BitVec 42) :
    exec (.shrImm x0 x1 x2 x3) s = execShrImm x0 x1 x2 x3 s := rfl
@[simp] theorem exec_sraReg (x0 : Guard) (x1 : BitVec 5) (x2 : BitVec 5) (x3 : BitVec 5) :
    exec (.sraReg x0 x1 x2 x3) s = execSraReg x0 x1 x2 x3 s := rfl
@[simp] theorem exec_sraImm (x0 : Guard) (x1 : BitVec 5) (x2 : BitVec 5) (x3 : BitVec 42) :
    exec (.sraImm x0 x1 x2 x3) s = execSraImm x0 x1 x2 x3 s := rfl
@[simp] theorem exec_minReg (x0 : Guard) (x1 : BitVec 5) (x2 : BitVec 5) (x3 : BitVec 5) :
    exec (.minReg x0 x1 x2 x3) s = execMinReg x0 x1 x2 x3 s := rfl
@[simp] theorem exec_minImm (x0 : Guard) (x1 : BitVec 5) (x2 : BitVec 5) (x3 : BitVec 42) :
    exec (.minImm x0 x1 x2 x3) s = execMinImm x0 x1 x2 x3 s := rfl
@[simp] theorem exec_maxReg (x0 : Guard) (x1 : BitVec 5) (x2 : BitVec 5) (x3 : BitVec 5) :
    exec (.maxReg x0 x1 x2 x3) s = execMaxReg x0 x1 x2 x3 s := rfl
@[simp] theorem exec_maxImm (x0 : Guard) (x1 : BitVec 5) (x2 : BitVec 5) (x3 : BitVec 42) :
    exec (.maxImm x0 x1 x2 x3) s = execMaxImm x0 x1 x2 x3 s := rfl
@[simp] theorem exec_bitc (x0 : Guard) (x1 : BitVec 5) (x2 : BitVec 5) (x3 : BitVec 6) :
    exec (.bitc x0 x1 x2 x3) s = execBitc x0 x1 x2 x3 s := rfl
@[simp] theorem exec_li (x0 : Guard) (x1 : BitVec 5) (x2 : BitVec 48) : exec (.li x0 x1 x2) s = execLi x0 x1 x2 s := rfl
@[simp] theorem exec_cmpReg (x0 : Guard) (x1 : BitVec 3) (x2 : BitVec 4) (x3 : BitVec 5) (x4 : BitVec 5) :
    exec (.cmpReg x0 x1 x2 x3 x4) s = execCmpReg x0 x1 x2 x3 x4 s := rfl
@[simp] theorem exec_cmpImm (x0 : Guard) (x1 : BitVec 3) (x2 : BitVec 4) (x3 : BitVec 5) (x4 : BitVec 39) :
    exec (.cmpImm x0 x1 x2 x3 x4) s = execCmpImm x0 x1 x2 x3 x4 s := rfl
@[simp] theorem exec_plog (x0 : Guard) (x1 : BitVec 3) (x2 : BitVec 4) (x3 : Guard) (x4 : Guard) :
    exec (.plog x0 x1 x2 x3 x4) s = execPlog x0 x1 x2 x3 x4 s := rfl
@[simp] theorem exec_sel (x0 : Guard) (x1 : BitVec 5) (x2 : Guard) (x3 : BitVec 5) (x4 : BitVec 5) :
    exec (.sel x0 x1 x2 x3 x4) s = execSel x0 x1 x2 x3 x4 s := rfl
@[simp] theorem exec_br (x0 : Guard) (x1 : BitVec 4) (x2 : BitVec 5) (x3 : BitVec 15) :
    exec (.br x0 x1 x2 x3) s = execBr x0 x1 x2 x3 s := rfl
@[simp] theorem exec_jmpLabel (x0 : Guard) (x1 : BitVec 15) : exec (.jmpLabel x0 x1) s = execJmpLabel x0 x1 s := rfl
@[simp] theorem exec_jmpReg (x0 : Guard) (x1 : BitVec 5) : exec (.jmpReg x0 x1) s = execJmpReg x0 x1 s := rfl
@[simp] theorem exec_callLabel (x0 : Guard) (x1 : BitVec 15) : exec (.callLabel x0 x1) s = execCallLabel x0 x1 s := rfl
@[simp] theorem exec_callReg (x0 : Guard) (x1 : BitVec 5) : exec (.callReg x0 x1) s = execCallReg x0 x1 s := rfl
@[simp] theorem exec_ret (x0 : Guard) (x1 : BitVec 5) : exec (.ret x0 x1) s = execRet x0 x1 s := rfl
@[simp] theorem exec_loopReg (x0 : Guard) (x1 : BitVec 5) (x2 : BitVec 15) :
    exec (.loopReg x0 x1 x2) s = execLoopReg x0 x1 x2 s := rfl
@[simp] theorem exec_loopImm (x0 : Guard) (x1 : BitVec 16) (x2 : BitVec 15) :
    exec (.loopImm x0 x1 x2) s = execLoopImm x0 x1 x2 s := rfl
@[simp] theorem exec_lbrk (x0 : Guard) (x1 : BitVec 16) : exec (.lbrk x0 x1) s = execLbrk x0 x1 s := rfl
@[simp] theorem exec_waitImm (x0 : Guard) (x1 : BitVec 4) (x2 : W32) :
    exec (.waitImm x0 x1 x2) s = execWaitImm x0 x1 x2 s := rfl
@[simp] theorem exec_waitReg (x0 : Guard) (x1 : BitVec 4) (x2 : BitVec 5) :
    exec (.waitReg x0 x1 x2) s = execWaitReg x0 x1 x2 s := rfl
@[simp] theorem exec_waitTcyc (x0 : Guard) (x1 : BitVec 5) : exec (.waitTcyc x0 x1) s = execWaitTcyc x0 x1 s := rfl
@[simp] theorem exec_phase (x0 : Guard) (x1 : BitVec 3) : exec (.phase x0 x1) s = execPhase x0 x1 s := rfl
@[simp] theorem exec_pass (x0 : Guard) (x1 : BitVec 5) (x2 : W32) : exec (.pass x0 x1 x2) s = execPass x0 x1 x2 s := rfl
@[simp] theorem exec_passCycleReg (x0 : Guard) (x1 : BitVec 5) (x2 : W32) (x3 : BitVec 5) :
    exec (.passCycleReg x0 x1 x2 x3) s = execPassCycleReg x0 x1 x2 x3 s := rfl
@[simp] theorem exec_yield (x0 : Guard) : exec (.yield x0) s = execYield x0 s := rfl
@[simp] theorem exec_yieldField (x0 : Guard) : exec (.yieldField x0) s = execYieldField x0 s := rfl
@[simp] theorem exec_view (x0 : Guard) (x1 : BitVec 6) (x2 : BitVec 5) : exec (.view x0 x1 x2) s = execView x0 x1 x2 s := rfl
@[simp] theorem exec_viewCopy (x0 : Guard) (x1 : BitVec 6) (x2 : BitVec 6) :
    exec (.viewCopy x0 x1 x2) s = execViewCopy x0 x1 x2 s := rfl
@[simp] theorem exec_viewBase (x0 : Guard) (x1 : BitVec 6) (x2 : BitVec 5) (x3 : W32) :
    exec (.viewBase x0 x1 x2 x3) s = execViewBase x0 x1 x2 x3 s := rfl
@[simp] theorem exec_viewGen (x0 : Guard) (x1 : BitVec 6) (x2 : Byte) :
    exec (.viewGen x0 x1 x2) s = execViewGen x0 x1 x2 s := rfl
@[simp] theorem exec_gets (x0 : Guard) (x1 : BitVec 5) (x2 : BitVec 12) : exec (.gets x0 x1 x2) s = execGets x0 x1 x2 s := rfl
@[simp] theorem exec_setsReg (x0 : Guard) (x1 : BitVec 12) (x2 : BitVec 5) :
    exec (.setsReg x0 x1 x2) s = execSetsReg x0 x1 x2 s := rfl
@[simp] theorem exec_setsImm (x0 : Guard) (x1 : BitVec 12) (x2 : W32) :
    exec (.setsImm x0 x1 x2) s = execSetsImm x0 x1 x2 s := rfl
@[simp] theorem exec_setsOr (x0 : Guard) (x1 : BitVec 12) (x2 : W32) :
    exec (.setsOr x0 x1 x2) s = execSetsOr x0 x1 x2 s := rfl
@[simp] theorem exec_setsClr (x0 : Guard) (x1 : BitVec 12) (x2 : W32) :
    exec (.setsClr x0 x1 x2) s = execSetsClr x0 x1 x2 s := rfl
@[simp] theorem exec_trap (x0 : Guard) (x1 : Half) : exec (.trap x0 x1) s = execTrap x0 x1 s := rfl
@[simp] theorem exec_tret (x0 : Guard) : exec (.tret x0) s = execTret x0 s := rfl
@[simp] theorem exec_uiret (x0 : Guard) : exec (.uiret x0) s = execUiret x0 s := rfl
@[simp] theorem exec_done (x0 : Guard) : exec (.done x0) s = execDone x0 s := rfl
@[simp] theorem exec_aaddReg (x0 : Guard) (x1 : BitVec 4) (x2 : BitVec 4) (x3 : BitVec 5) :
    exec (.aaddReg x0 x1 x2 x3) s = execAaddReg x0 x1 x2 x3 s := rfl
@[simp] theorem exec_aaddImm (x0 : Guard) (x1 : BitVec 4) (x2 : BitVec 4) (x3 : BitVec 30) :
    exec (.aaddImm x0 x1 x2 x3) s = execAaddImm x0 x1 x2 x3 s := rfl
@[simp] theorem exec_ali (x0 : Guard) (x1 : BitVec 4) (x2 : W32) : exec (.ali x0 x1 x2) s = execAli x0 x1 x2 s := rfl
@[simp] theorem exec_amovToA (x0 : Guard) (x1 : BitVec 4) (x2 : BitVec 5) :
    exec (.amovToA x0 x1 x2) s = execAmovToA x0 x1 x2 s := rfl
@[simp] theorem exec_amovToS (x0 : Guard) (x1 : BitVec 5) (x2 : BitVec 4) :
    exec (.amovToS x0 x1 x2) s = execAmovToS x0 x1 x2 s := rfl
@[simp] theorem exec_acfgLin (x0 : Guard) (x1 : BitVec 4) (x2 : Half) :
    exec (.acfgLin x0 x1 x2) s = execAcfgLin x0 x1 x2 s := rfl
@[simp] theorem exec_acfgMod (x0 : Guard) (x1 : BitVec 4) (x2 : BitVec 5) (x3 : Half) :
    exec (.acfgMod x0 x1 x2 x3) s = execAcfgMod x0 x1 x2 x3 s := rfl
@[simp] theorem exec_acfgBrev (x0 : Guard) (x1 : BitVec 4) (x2 : BitVec 5) (x3 : Half) :
    exec (.acfgBrev x0 x1 x2 x3) s = execAcfgBrev x0 x1 x2 x3 s := rfl
@[simp] theorem exec_lidx (x0 : Guard) (x1 : BitVec 4) (x2 : BitVec 6) (x3 : BitVec 5) :
    exec (.lidx x0 x1 x2 x3) s = execLidx x0 x1 x2 x3 s := rfl
@[simp] theorem exec_pf (x0 : Guard) (x1 : BitVec 3) (x2 : BitVec 6) : exec (.pf x0 x1 x2) s = execPf x0 x1 x2 s := rfl
@[simp] theorem exec_vadd (x0 : VHdr) (x1 : BitVec 6) (x2 : VSrc) (x3 : VOp) (x4 : BitVec 2) (x5 : Bool) :
    exec (.vadd x0 x1 x2 x3 x4 x5) s = execVadd x0 x1 x2 x3 x4 x5 s := rfl
@[simp] theorem exec_vsub (x0 : VHdr) (x1 : BitVec 6) (x2 : VSrc) (x3 : VOp) (x4 : BitVec 2) (x5 : Bool) :
    exec (.vsub x0 x1 x2 x3 x4 x5) s = execVsub x0 x1 x2 x3 x4 x5 s := rfl
@[simp] theorem exec_vmul (x0 : VHdr) (x1 : BitVec 6) (x2 : VSrc) (x3 : VOp) (x4 : BitVec 2) (x5 : Bool) :
    exec (.vmul x0 x1 x2 x3 x4 x5) s = execVmul x0 x1 x2 x3 x4 x5 s := rfl
@[simp] theorem exec_vfma (x0 : VHdr) (x1 : BitVec 6) (x2 : VSrc) (x3 : VOp) (x4 : VOp) (x5 : BitVec 2) (x6 : Bool) :
    exec (.vfma x0 x1 x2 x3 x4 x5 x6) s = execVfma x0 x1 x2 x3 x4 x5 x6 s := rfl
@[simp] theorem exec_vmin (x0 : VHdr) (x1 : BitVec 6) (x2 : VSrc) (x3 : VOp) :
    exec (.vmin x0 x1 x2 x3) s = execVmin x0 x1 x2 x3 s := rfl
@[simp] theorem exec_vmax (x0 : VHdr) (x1 : BitVec 6) (x2 : VSrc) (x3 : VOp) :
    exec (.vmax x0 x1 x2 x3) s = execVmax x0 x1 x2 x3 s := rfl
@[simp] theorem exec_vdiv (x0 : VHdr) (x1 : BitVec 6) (x2 : VSrc) (x3 : VOp) (x4 : BitVec 2) (x5 : Bool) :
    exec (.vdiv x0 x1 x2 x3 x4 x5) s = execVdiv x0 x1 x2 x3 x4 x5 s := rfl
@[simp] theorem exec_vsqrt (x0 : VHdr) (x1 : BitVec 6) (x2 : VSrc) (x3 : BitVec 2) (x4 : Bool) :
    exec (.vsqrt x0 x1 x2 x3 x4) s = execVsqrt x0 x1 x2 x3 x4 s := rfl
@[simp] theorem exec_vrsq (x0 : VHdr) (x1 : BitVec 6) (x2 : VSrc) (x3 : BitVec 2) (x4 : Bool) :
    exec (.vrsq x0 x1 x2 x3 x4) s = execVrsq x0 x1 x2 x3 x4 s := rfl
@[simp] theorem exec_vexp2 (x0 : VHdr) (x1 : BitVec 6) (x2 : VSrc) (x3 : BitVec 2) (x4 : Bool) :
    exec (.vexp2 x0 x1 x2 x3 x4) s = execVexp2 x0 x1 x2 x3 x4 s := rfl
@[simp] theorem exec_vlog2 (x0 : VHdr) (x1 : BitVec 6) (x2 : VSrc) (x3 : BitVec 2) (x4 : Bool) :
    exec (.vlog2 x0 x1 x2 x3 x4) s = execVlog2 x0 x1 x2 x3 x4 s := rfl
@[simp] theorem exec_vcvt (x0 : VHdr) (x1 : BitVec 6) (x2 : VSrc) (x3 : BitVec 2) (x4 : Bool) :
    exec (.vcvt x0 x1 x2 x3 x4) s = execVcvt x0 x1 x2 x3 x4 s := rfl
@[simp] theorem exec_vmov (x0 : VHdr) (x1 : BitVec 6) (x2 : VSrc) : exec (.vmov x0 x1 x2) s = execVmov x0 x1 x2 s := rfl
@[simp] theorem exec_vsplat (x0 : VHdr) (x1 : BitVec 6) (x2 : BitVec 5) (x3 : BitVec 2) (x4 : Bool) :
    exec (.vsplat x0 x1 x2 x3 x4) s = execVsplat x0 x1 x2 x3 x4 s := rfl
@[simp] theorem exec_vsel (x0 : VHdr) (x1 : BitVec 6) (x2 : VSrc) (x3 : VOp) (x4 : VOp) :
    exec (.vsel x0 x1 x2 x3 x4) s = execVsel x0 x1 x2 x3 x4 s := rfl
@[simp] theorem exec_vand (x0 : VHdr) (x1 : BitVec 6) (x2 : VSrc) (x3 : VOp) :
    exec (.vand x0 x1 x2 x3) s = execVand x0 x1 x2 x3 s := rfl
@[simp] theorem exec_vor (x0 : VHdr) (x1 : BitVec 6) (x2 : VSrc) (x3 : VOp) :
    exec (.vor x0 x1 x2 x3) s = execVor x0 x1 x2 x3 s := rfl
@[simp] theorem exec_vxor (x0 : VHdr) (x1 : BitVec 6) (x2 : VSrc) (x3 : VOp) :
    exec (.vxor x0 x1 x2 x3) s = execVxor x0 x1 x2 x3 s := rfl
@[simp] theorem exec_vshlTile (x0 : VHdr) (x1 : BitVec 6) (x2 : VSrc) (x3 : VSrc) (x4 : Bool) :
    exec (.vshlTile x0 x1 x2 x3 x4) s = execVshlTile x0 x1 x2 x3 x4 s := rfl
@[simp] theorem exec_vshlScalar (x0 : VHdr) (x1 : BitVec 6) (x2 : VSrc) (x3 : BitVec 5) (x4 : Bool) :
    exec (.vshlScalar x0 x1 x2 x3 x4) s = execVshlScalar x0 x1 x2 x3 x4 s := rfl
@[simp] theorem exec_vshlImm (x0 : VHdr) (x1 : BitVec 6) (x2 : VSrc) (x3 : BitVec 6) (x4 : Bool) :
    exec (.vshlImm x0 x1 x2 x3 x4) s = execVshlImm x0 x1 x2 x3 x4 s := rfl
@[simp] theorem exec_vshrTile (x0 : VHdr) (x1 : BitVec 6) (x2 : VSrc) (x3 : VSrc) (x4 : Bool) :
    exec (.vshrTile x0 x1 x2 x3 x4) s = execVshrTile x0 x1 x2 x3 x4 s := rfl
@[simp] theorem exec_vshrScalar (x0 : VHdr) (x1 : BitVec 6) (x2 : VSrc) (x3 : BitVec 5) (x4 : Bool) :
    exec (.vshrScalar x0 x1 x2 x3 x4) s = execVshrScalar x0 x1 x2 x3 x4 s := rfl
@[simp] theorem exec_vshrImm (x0 : VHdr) (x1 : BitVec 6) (x2 : VSrc) (x3 : BitVec 6) (x4 : Bool) :
    exec (.vshrImm x0 x1 x2 x3 x4) s = execVshrImm x0 x1 x2 x3 x4 s := rfl
@[simp] theorem exec_vcmp (x0 : VHdr) (x1 : BitVec 6) (x2 : VSrc) (x3 : VOp) (x4 : BitVec 4) :
    exec (.vcmp x0 x1 x2 x3 x4) s = execVcmp x0 x1 x2 x3 x4 s := rfl
@[simp] theorem exec_vmskPre (x0 : VHdr) (x1 : BitVec 6) (x2 : BitVec 11) :
    exec (.vmskPre x0 x1 x2) s = execVmskPre x0 x1 x2 s := rfl
@[simp] theorem exec_vmskRect (x0 : VHdr) (x1 : BitVec 6) (x2 : BitVec 5) (x3 : BitVec 7) :
    exec (.vmskRect x0 x1 x2 x3) s = execVmskRect x0 x1 x2 x3 s := rfl
@[simp] theorem exec_vmskRng (x0 : VHdr) (x1 : BitVec 6) (x2 : BitVec 5) :
    exec (.vmskRng x0 x1 x2) s = execVmskRng x0 x1 x2 s := rfl
@[simp] theorem exec_vpop (x0 : VHdr) (x1 : BitVec 5) (x2 : VSrc) : exec (.vpop x0 x1 x2) s = execVpop x0 x1 x2 s := rfl
@[simp] theorem exec_vextImm (x0 : VHdr) (x1 : BitVec 5) (x2 : VSrc) (x3 : BitVec 10) :
    exec (.vextImm x0 x1 x2 x3) s = execVextImm x0 x1 x2 x3 s := rfl
@[simp] theorem exec_vextReg (x0 : VHdr) (x1 : BitVec 5) (x2 : VSrc) (x3 : BitVec 5) :
    exec (.vextReg x0 x1 x2 x3) s = execVextReg x0 x1 x2 x3 s := rfl
@[simp] theorem exec_vrotr (x0 : VHdr) (x1 : BitVec 6) (x2 : VSrc) (x3 : VAmt) :
    exec (.vrotr x0 x1 x2 x3) s = execVrotr x0 x1 x2 x3 s := rfl
@[simp] theorem exec_vrotc (x0 : VHdr) (x1 : BitVec 6) (x2 : VSrc) (x3 : VAmt) :
    exec (.vrotc x0 x1 x2 x3) s = execVrotc x0 x1 x2 x3 s := rfl
@[simp] theorem exec_vbcr (x0 : VHdr) (x1 : BitVec 6) (x2 : VSrc) (x3 : VAmt) :
    exec (.vbcr x0 x1 x2 x3) s = execVbcr x0 x1 x2 x3 s := rfl
@[simp] theorem exec_vbcc (x0 : VHdr) (x1 : BitVec 6) (x2 : VSrc) (x3 : VAmt) :
    exec (.vbcc x0 x1 x2 x3) s = execVbcc x0 x1 x2 x3 s := rfl
@[simp] theorem exec_vshuf (x0 : VHdr) (x1 : BitVec 6) (x2 : VSrc) (x3 : VSrc) :
    exec (.vshuf x0 x1 x2 x3) s = execVshuf x0 x1 x2 x3 s := rfl
@[simp] theorem exec_vredr (x0 : VHdr) (x1 : BitVec 6) (x2 : VSrc) (x3 : BitVec 2) (x4 : Bool) (x5 : BitVec 2) (x6 : Bool) :
    exec (.vredr x0 x1 x2 x3 x4 x5 x6) s = execVredr x0 x1 x2 x3 x4 x5 x6 s := rfl
@[simp] theorem exec_vredc (x0 : VHdr) (x1 : BitVec 6) (x2 : VSrc) (x3 : BitVec 2) (x4 : Bool) (x5 : BitVec 2) (x6 : Bool) :
    exec (.vredc x0 x1 x2 x3 x4 x5 x6) s = execVredc x0 x1 x2 x3 x4 x5 x6 s := rfl
@[simp] theorem exec_vshpType (x0 : VHdr) (x1 : BitVec 6) (x2 : BitVec 4) (x3 : BitVec 4) (x4 : BitVec 6) :
    exec (.vshpType x0 x1 x2 x3 x4) s = execVshpType x0 x1 x2 x3 x4 s := rfl
@[simp] theorem exec_vshpKeep (x0 : VHdr) (x1 : BitVec 6) (x2 : BitVec 4) (x3 : BitVec 6) :
    exec (.vshpKeep x0 x1 x2 x3) s = execVshpKeep x0 x1 x2 x3 s := rfl
@[simp] theorem exec_vshpReg (x0 : VHdr) (x1 : BitVec 6) (x2 : BitVec 5) :
    exec (.vshpReg x0 x1 x2) s = execVshpReg x0 x1 x2 s := rfl
@[simp] theorem exec_vqlt (x0 : VHdr) (x1 : BitVec 6) (x2 : VSrc) (x3 : BitVec 4) (x4 : BitVec 2) (x5 : Bool) :
    exec (.vqlt x0 x1 x2 x3 x4 x5) s = execVqlt x0 x1 x2 x3 x4 x5 s := rfl
@[simp] theorem exec_vqltOffsets (x0 : VHdr) (x1 : BitVec 6) (x2 : VSrc) (x3 : VSrc) (x4 : BitVec 4) (x5 : BitVec 2) (x6 : Bool) :
    exec (.vqltOffsets x0 x1 x2 x3 x4 x5 x6) s = execVqltOffsets x0 x1 x2 x3 x4 x5 x6 s := rfl
@[simp] theorem exec_vboff (x0 : VHdr) (x1 : BitVec 6) (x2 : VSrc) (x3 : BitVec 4) :
    exec (.vboff x0 x1 x2 x3) s = execVboff x0 x1 x2 x3 s := rfl
@[simp] theorem exec_amodeNorm (x0 : Guard) : exec (.amodeNorm x0) s = execAmodeNorm x0 s := rfl
@[simp] theorem exec_amodeSplit (x0 : Guard) : exec (.amodeSplit x0) s = execAmodeSplit x0 s := rfl
@[simp] theorem exec_wload (x0 : Guard) (x1 : BitVec 9) (x2 : Bool) (x3 : BitVec 4) (x4 : BitVec 4) (x5 : Timing) :
    exec (.wload x0 x1 x2 x3 x4 x5) s = execWload x0 x1 x2 x3 x4 x5 s := rfl
@[simp] theorem exec_wloadg (x0 : Guard) (x1 : BitVec 6) (x2 : BitVec 2) (x3 : Bool) (x4 : BitVec 4) (x5 : Byte) (x6 : Timing) :
    exec (.wloadg x0 x1 x2 x3 x4 x5 x6) s = execWloadg x0 x1 x2 x3 x4 x5 x6 s := rfl
@[simp] theorem exec_wloadgImg (x0 : Guard) (x1 : BitVec 6) (x2 : BitVec 2) (x3 : Bool) (x4 : Timing) :
    exec (.wloadgImg x0 x1 x2 x3 x4) s = execWloadgImg x0 x1 x2 x3 x4 s := rfl
@[simp] theorem exec_stream (x0 : Guard) (x1 : BitVec 5) (x2 : Option (BitVec 6)) (x3 : Option (BitVec 6)) (x4 : Option (BitVec 6)) (x5 : Timing) :
    exec (.stream x0 x1 x2 x3 x4 x5) s = execStream x0 x1 x2 x3 x4 x5 s := rfl
@[simp] theorem exec_streamt (x0 : Guard) (x1 : BitVec 5) (x2 : Option (BitVec 6)) (x3 : Option (BitVec 6)) (x4 : Option (BitVec 6)) (x5 : Timing) :
    exec (.streamt x0 x1 x2 x3 x4 x5) s = execStreamt x0 x1 x2 x3 x4 x5 s := rfl
@[simp] theorem exec_drain (x0 : Guard) (x1 : BitVec 6) (x2 : BitVec 6) (x3 : BitVec 4) (x4 : BitVec 6) (x5 : BitVec 2) (x6 : BitVec 2) (x7 : Bool) (x8 : Bool) (x9 : Timing) :
    exec (.drain x0 x1 x2 x3 x4 x5 x6 x7 x8 x9) s = execDrain x0 x1 x2 x3 x4 x5 x6 x7 x8 x9 s := rfl
@[simp] theorem exec_aclr (x0 : Guard) (x1 : BitVec 6) (x2 : BitVec 6) : exec (.aclr x0 x1 x2) s = execAclr x0 x1 x2 s := rfl
@[simp] theorem exec_wstore (x0 : Guard) (x1 : BitVec 6) (x2 : BitVec 5) (x3 : BitVec 4) :
    exec (.wstore x0 x1 x2 x3) s = execWstore x0 x1 x2 x3 s := rfl
@[simp] theorem exec_wstorePlane (x0 : Guard) (x1 : BitVec 6) (x2 : BitVec 2) (x3 : Bool) (x4 : BitVec 4) :
    exec (.wstorePlane x0 x1 x2 x3 x4) s = execWstorePlane x0 x1 x2 x3 x4 s := rfl
@[simp] theorem exec_cbld (x0 : Guard) (x1 : BitVec 4) (x2 : Byte) (x3 : Byte) (x4 : BitVec 6) :
    exec (.cbld x0 x1 x2 x3 x4) s = execCbld x0 x1 x2 x3 x4 s := rfl
@[simp] theorem exec_cbldRestore (x0 : Guard) (x1 : BitVec 4) (x2 : BitVec 6) :
    exec (.cbldRestore x0 x1 x2) s = execCbldRestore x0 x1 x2 s := rfl
@[simp] theorem exec_cbflip (x0 : Guard) (x1 : BitVec 4) : exec (.cbflip x0 x1) s = execCbflip x0 x1 s := rfl
@[simp] theorem exec_cbst (x0 : Guard) (x1 : BitVec 4) (x2 : BitVec 6) (x3 : BitVec 4) :
    exec (.cbst x0 x1 x2 x3) s = execCbst x0 x1 x2 x3 s := rfl
@[simp] theorem exec_lds (x0 : Guard) (x1 : BitVec 5) (x2 : Ea) (x3 : Bool) (x4 : BitVec 2) (x5 : Bool) (x6 : BitVec 4) (x7 : Option (BitVec 6)) :
    exec (.lds x0 x1 x2 x3 x4 x5 x6 x7) s = execLds x0 x1 x2 x3 x4 x5 x6 x7 s := rfl
@[simp] theorem exec_sts (x0 : Guard) (x1 : BitVec 5) (x2 : Ea) (x3 : Bool) (x4 : BitVec 2) (x5 : BitVec 4) (x6 : Option (BitVec 6)) :
    exec (.sts x0 x1 x2 x3 x4 x5 x6) s = execSts x0 x1 x2 x3 x4 x5 x6 s := rfl
@[simp] theorem exec_tld (x0 : Guard) (x1 : BitVec 6) (x2 : Ea) (x3 : Bool) (x4 : BitVec 5) (x5 : BitVec 4) (x6 : Option (BitVec 6)) (x7 : Bool) :
    exec (.tld x0 x1 x2 x3 x4 x5 x6 x7) s = execTld x0 x1 x2 x3 x4 x5 x6 x7 s := rfl
@[simp] theorem exec_tst (x0 : Guard) (x1 : BitVec 6) (x2 : Ea) (x3 : Bool) (x4 : BitVec 5) (x5 : BitVec 4) (x6 : Option (BitVec 6)) :
    exec (.tst x0 x1 x2 x3 x4 x5 x6) s = execTst x0 x1 x2 x3 x4 x5 x6 s := rfl
@[simp] theorem exec_atom (x0 : Guard) (x1 : BitVec 5) (x2 : Ea) (x3 : Bool) (x4 : BitVec 4) (x5 : BitVec 5) (x6 : BitVec 5) (x7 : BitVec 4) (x8 : Option (BitVec 6)) :
    exec (.atom x0 x1 x2 x3 x4 x5 x6 x7 x8) s = execAtom x0 x1 x2 x3 x4 x5 x6 x7 x8 s := rfl
@[simp] theorem exec_atomt (x0 : Guard) (x1 : BitVec 6) (x2 : Ea) (x3 : BitVec 5) (x4 : BitVec 3) (x5 : BitVec 4) (x6 : Option (BitVec 6)) :
    exec (.atomt x0 x1 x2 x3 x4 x5 x6) s = execAtomt x0 x1 x2 x3 x4 x5 x6 s := rfl
@[simp] theorem exec_stash (x0 : Guard) (x1 : BitVec 2) (x2 : BitVec 4) (x3 : BitVec 4) (x4 : BitVec 3) (x5 : BitVec 5) (x6 : BitVec 13) :
    exec (.stash x0 x1 x2 x3 x4 x5 x6) s = execStash x0 x1 x2 x3 x4 x5 x6 s := rfl
@[simp] theorem exec_stashOff (x0 : Guard) (x1 : BitVec 2) : exec (.stashOff x0 x1) s = execStashOff x0 x1 s := rfl
@[simp] theorem exec_hintReq (x0 : Guard) (x1 : Ea) (x2 : Byte) (x3 : Option (BitVec 4)) :
    exec (.hintReq x0 x1 x2 x3) s = execHintReq x0 x1 x2 x3 s := rfl
@[simp] theorem exec_hintFill (x0 : Guard) (x1 : Ea) (x2 : Byte) (x3 : Option (BitVec 4)) :
    exec (.hintFill x0 x1 x2 x3) s = execHintFill x0 x1 x2 x3 s := rfl
@[simp] theorem exec_hintDrop (x0 : Guard) (x1 : Ea) (x2 : Byte) (x3 : Option (BitVec 4)) :
    exec (.hintDrop x0 x1 x2 x3) s = execHintDrop x0 x1 x2 x3 s := rfl
@[simp] theorem exec_hintL2 (x0 : Guard) (x1 : Ea) (x2 : Byte) (x3 : Option (BitVec 4)) :
    exec (.hintL2 x0 x1 x2 x3) s = execHintL2 x0 x1 x2 x3 s := rfl
@[simp] theorem exec_cpy (x0 : Guard) (x1 : BitVec 5) (x2 : BitVec 2) (x3 : BitVec 2) (x4 : BitVec 4) (x5 : Bool) (x6 : BitVec 5) :
    exec (.cpy x0 x1 x2 x3 x4 x5 x6) s = execCpy x0 x1 x2 x3 x4 x5 x6 s := rfl
@[simp] theorem exec_cpyzSt (x0 : Guard) (x1 : BitVec 6) (x2 : BitVec 5) (x3 : BitVec 5) (x4 : BitVec 4) (x5 : Bool) (x6 : BitVec 5) :
    exec (.cpyzSt x0 x1 x2 x3 x4 x5 x6) s = execCpyzSt x0 x1 x2 x3 x4 x5 x6 s := rfl
@[simp] theorem exec_cpyzLd (x0 : Guard) (x1 : BitVec 6) (x2 : BitVec 5) (x3 : BitVec 5) (x4 : BitVec 4) (x5 : Bool) (x6 : BitVec 5) :
    exec (.cpyzLd x0 x1 x2 x3 x4 x5 x6) s = execCpyzLd x0 x1 x2 x3 x4 x5 x6 s := rfl
@[simp] theorem exec_msend (x0 : Guard) (x1 : BitVec 2) (x2 : MeshPay) (x3 : Timing) :
    exec (.msend x0 x1 x2 x3) s = execMsend x0 x1 x2 x3 s := rfl
@[simp] theorem exec_mrecv (x0 : Guard) (x1 : BitVec 2) (x2 : MeshPay) (x3 : Timing) :
    exec (.mrecv x0 x1 x2 x3) s = execMrecv x0 x1 x2 x3 s := rfl
@[simp] theorem exec_lsend (x0 : Guard) (x1 : BitVec 5) (x2 : BitVec 5) (x3 : BitVec 4) (x4 : Timing) :
    exec (.lsend x0 x1 x2 x3 x4) s = execLsend x0 x1 x2 x3 x4 s := rfl
@[simp] theorem exec_lrecv (x0 : Guard) (x1 : BitVec 5) (x2 : BitVec 5) (x3 : BitVec 4) (x4 : Timing) :
    exec (.lrecv x0 x1 x2 x3 x4) s = execLrecv x0 x1 x2 x3 x4 s := rfl
@[simp] theorem exec_lred (x0 : Guard) (x1 : BitVec 5) (x2 : BitVec 5) (x3 : BitVec 4) (x4 : Timing) :
    exec (.lred x0 x1 x2 x3 x4) s = execLred x0 x1 x2 x3 x4 s := rfl
@[simp] theorem exec_lbcst (x0 : Guard) (x1 : BitVec 5) (x2 : BitVec 5) (x3 : BitVec 4) (x4 : Timing) :
    exec (.lbcst x0 x1 x2 x3 x4) s = execLbcst x0 x1 x2 x3 x4 s := rfl
@[simp] theorem exec_bcall (x0 : Guard) (x1 : BitVec 5) (x2 : BitVec 5) (x3 : BitVec 4) :
    exec (.bcall x0 x1 x2 x3) s = execBcall x0 x1 x2 x3 s := rfl
@[simp] theorem exec_fence (x0 : Guard) (x1 : BitVec 5) (x2 : BitVec 5) (x3 : BitVec 4) :
    exec (.fence x0 x1 x2 x3) s = execFence x0 x1 x2 x3 s := rfl
@[simp] theorem exec_vjoin (x0 : Guard) : exec (.vjoin x0) s = execVjoin x0 s := rfl
@[simp] theorem exec_tlbinv (x0 : Guard) (x1 : BitVec 5) (x2 : BitVec 5) (x3 : BitVec 4) :
    exec (.tlbinv x0 x1 x2 x3) s = execTlbinv x0 x1 x2 x3 s := rfl
@[simp] theorem exec_tlbinvDie (x0 : Guard) (x1 : BitVec 5) (x2 : BitVec 4) :
    exec (.tlbinvDie x0 x1 x2) s = execTlbinvDie x0 x1 x2 s := rfl
@[simp] theorem exec_csaveCtx (x0 : Guard) (x1 : BitVec 2) (x2 : BitVec 5) (x3 : BitVec 4) :
    exec (.csaveCtx x0 x1 x2 x3) s = execCsaveCtx x0 x1 x2 x3 s := rfl
@[simp] theorem exec_csaveTile (x0 : Guard) (x1 : BitVec 5) (x2 : BitVec 4) :
    exec (.csaveTile x0 x1 x2) s = execCsaveTile x0 x1 x2 s := rfl
@[simp] theorem exec_csaveBlk (x0 : Guard) (x1 : BitVec 5) (x2 : BitVec 5) (x3 : BitVec 4) :
    exec (.csaveBlk x0 x1 x2 x3) s = execCsaveBlk x0 x1 x2 x3 s := rfl
@[simp] theorem exec_csaveCode (x0 : Guard) (x1 : BitVec 5) (x2 : BitVec 4) :
    exec (.csaveCode x0 x1 x2) s = execCsaveCode x0 x1 x2 s := rfl
@[simp] theorem exec_cloadCtx (x0 : Guard) (x1 : BitVec 2) (x2 : BitVec 5) (x3 : BitVec 4) :
    exec (.cloadCtx x0 x1 x2 x3) s = execCloadCtx x0 x1 x2 x3 s := rfl
@[simp] theorem exec_cloadTile (x0 : Guard) (x1 : BitVec 5) (x2 : BitVec 4) :
    exec (.cloadTile x0 x1 x2) s = execCloadTile x0 x1 x2 s := rfl
@[simp] theorem exec_cloadBlk (x0 : Guard) (x1 : BitVec 5) (x2 : BitVec 5) (x3 : BitVec 4) :
    exec (.cloadBlk x0 x1 x2 x3) s = execCloadBlk x0 x1 x2 x3 s := rfl
@[simp] theorem exec_cloadCode (x0 : Guard) (x1 : BitVec 5) (x2 : BitVec 4) :
    exec (.cloadCode x0 x1 x2) s = execCloadCode x0 x1 x2 s := rfl
@[simp] theorem exec_correctedError (x0 : Nat) (x1 : BitVec 9) (x2 : BitVec 4) :
    exec (.correctedError x0 x1 x2) s = execCorrectedError x0 x1 x2 s := rfl
@[simp] theorem exec_atomicComplete (x0 : Nat) : exec (.atomicComplete x0) s = execAtomicComplete x0 s := rfl
@[simp] theorem exec_powerOnReset : exec (.powerOnReset) s = execPowerOnReset s := rfl
@[simp] theorem exec_powerLoss : exec (.powerLoss) s = execPowerLoss s := rfl
@[simp] theorem exec_bootImageCheck : exec (.bootImageCheck) s = execBootImageCheck s := rfl
@[simp] theorem exec_colWindowStart : exec (.colWindowStart) s = execColWindowStart s := rfl
@[simp] theorem exec_scorebookSecondTick : exec (.scorebookSecondTick) s = execScorebookSecondTick s := rfl
@[simp] theorem exec_scorebookCommit : exec (.scorebookCommit) s = execScorebookCommit s := rfl
@[simp] theorem exec_sbDataloRead : exec (.sbDataloRead) s = execSbDataloRead s := rfl
@[simp] theorem exec_sbSnap : exec (.sbSnap) s = execSbSnap s := rfl
@[simp] theorem exec_snapshotDone : exec (.snapshotDone) s = execSnapshotDone s := rfl
@[simp] theorem exec_torTrain : exec (.torTrain) s = execTorTrain s := rfl
@[simp] theorem exec_timeBaseStart : exec (.timeBaseStart) s = execTimeBaseStart s := rfl
@[simp] theorem exec_torTimeloRead : exec (.torTimeloRead) s = execTorTimeloRead s := rfl
@[simp] theorem exec_frameDeparture : exec (.frameDeparture) s = execFrameDeparture s := rfl
@[simp] theorem exec_callEnd : exec (.callEnd) s = execCallEnd s := rfl
@[simp] theorem exec_refreshBreak : exec (.refreshBreak) s = execRefreshBreak s := rfl
@[simp] theorem exec_sessionTimeout : exec (.sessionTimeout) s = execSessionTimeout s := rfl
@[simp] theorem exec_abmEnter : exec (.abmEnter) s = execAbmEnter s := rfl
@[simp] theorem exec_abmExit : exec (.abmExit) s = execAbmExit s := rfl
@[simp] theorem exec_matvec16 : exec (.matvec16) s = execMatvec16 s := rfl
@[simp] theorem exec_axpy32 : exec (.axpy32) s = execAxpy32 s := rfl
@[simp] theorem exec_norm2 : exec (.norm2) s = execNorm2 s := rfl
@[simp] theorem exec_optClip : exec (.optClip) s = execOptClip s := rfl
@[simp] theorem exec_optTrust : exec (.optTrust) s = execOptTrust s := rfl
@[simp] theorem exec_req4 : exec (.req4) s = execReq4 s := rfl
@[simp] theorem exec_devShutdown : exec (.devShutdown) s = execDevShutdown s := rfl
@[simp] theorem exec_devReset : exec (.devReset) s = execDevReset s := rfl
@[simp] theorem exec_devCommitsvn : exec (.devCommitsvn) s = execDevCommitsvn s := rfl
@[simp] theorem exec_functionLevelReset : exec (.functionLevelReset) s = execFunctionLevelReset s := rfl
@[simp] theorem exec_launch : exec (.launch) s = execLaunch s := rfl
@[simp] theorem exec_park : exec (.park) s = execPark s := rfl
@[simp] theorem exec_resume : exec (.resume) s = execResume s := rfl
@[simp] theorem exec_evict : exec (.evict) s = execEvict s := rfl
@[simp] theorem exec_pair : exec (.pair) s = execPair s := rfl
@[simp] theorem exec_eventSetWrite : exec (.eventSetWrite) s = execEventSetWrite s := rfl
@[simp] theorem exec_eventSetAdd : exec (.eventSetAdd) s = execEventSetAdd s := rfl
@[simp] theorem exec_eventWait : exec (.eventWait) s = execEventWait s := rfl
@[simp] theorem exec_eventWaitMet : exec (.eventWaitMet) s = execEventWaitMet s := rfl
@[simp] theorem exec_copy : exec (.copy) s = execCopy s := rfl
@[simp] theorem exec_fencePacket : exec (.fencePacket) s = execFencePacket s := rfl
@[simp] theorem exec_fwloadDevice : exec (.fwloadDevice) s = execFwloadDevice s := rfl
@[simp] theorem exec_fwloadBankUnit : exec (.fwloadBankUnit) s = execFwloadBankUnit s := rfl
@[simp] theorem exec_queryDevice : exec (.queryDevice) s = execQueryDevice s := rfl
@[simp] theorem exec_queryAttestation : exec (.queryAttestation) s = execQueryAttestation s := rfl
@[simp] theorem exec_queryFieldState : exec (.queryFieldState) s = execQueryFieldState s := rfl
@[simp] theorem exec_mailboxDone : exec (.mailboxDone) s = execMailboxDone s := rfl
@[simp] theorem exec_faultRecordWrite : exec (.faultRecordWrite) s = execFaultRecordWrite s := rfl
@[simp] theorem exec_schedulerDecision : exec (.schedulerDecision) s = execSchedulerDecision s := rfl
@[simp] theorem exec_emptyBundle : exec (.emptyBundle) s = execEmptyBundle s := rfl
@[simp] theorem exec_orderlyShutdownComplete : exec (.orderlyShutdownComplete) s = execOrderlyShutdownComplete s := rfl

end Sys2Proof.Machine
end

