-- ==== Sys2Proof/Laws/State.lean ====
section
/-! SUPPORT. Laws of the updates of State: what each leaves of every field, and what contexts, tiles and dies read after it. -/

namespace Sys2Proof.Machine

open Sys2Proof

/-! ## setCtx -/

@[simp] theorem State.setCtx_now (s : State) (t h : Nat) (c : Ctx) : (s.setCtx t h c).now = s.now := rfl
@[simp] theorem State.setCtx_gzero (s : State) (t h : Nat) (c : Ctx) : (s.setCtx t h c).gzero = s.gzero := rfl
@[simp] theorem State.setCtx_tiles (s : State) (t h : Nat) (c : Ctx) : (s.setCtx t h c).tiles = s.tiles := rfl
@[simp] theorem State.setCtx_fields (s : State) (t h : Nat) (c : Ctx) : (s.setCtx t h c).fields = s.fields := rfl
@[simp] theorem State.setCtx_saved (s : State) (t h : Nat) (c : Ctx) : (s.setCtx t h c).saved = s.saved := rfl
@[simp] theorem State.setCtx_groups (s : State) (t h : Nat) (c : Ctx) : (s.setCtx t h c).groups = s.groups := rfl
@[simp] theorem State.setCtx_finished (s : State) (t h : Nat) (c : Ctx) : (s.setCtx t h c).finished = s.finished := rfl
@[simp] theorem State.setCtx_shapes (s : State) (t h : Nat) (c : Ctx) : (s.setCtx t h c).shapes = s.shapes := rfl
@[simp] theorem State.setCtx_doms (s : State) (t h : Nat) (c : Ctx) : (s.setCtx t h c).doms = s.doms := rfl
@[simp] theorem State.setCtx_away (s : State) (t h : Nat) (c : Ctx) : (s.setCtx t h c).away = s.away := rfl
@[simp] theorem State.setCtx_dies (s : State) (t h : Nat) (c : Ctx) : (s.setCtx t h c).dies = s.dies := rfl
@[simp] theorem State.setCtx_seqrs (s : State) (t h : Nat) (c : Ctx) : (s.setCtx t h c).seqrs = s.seqrs := rfl
@[simp] theorem State.setCtx_cmds (s : State) (t h : Nat) (c : Ctx) : (s.setCtx t h c).cmds = s.cmds := rfl
@[simp] theorem State.setCtx_calls (s : State) (t h : Nat) (c : Ctx) : (s.setCtx t h c).calls = s.calls := rfl
@[simp] theorem State.setCtx_micro (s : State) (t h : Nat) (c : Ctx) : (s.setCtx t h c).micro = s.micro := rfl
@[simp] theorem State.setCtx_starts (s : State) (t h : Nat) (c : Ctx) : (s.setCtx t h c).starts = s.starts := rfl
@[simp] theorem State.setCtx_col (s : State) (t h : Nat) (c : Ctx) : (s.setCtx t h c).col = s.col := rfl
@[simp] theorem State.setCtx_sb (s : State) (t h : Nat) (c : Ctx) : (s.setCtx t h c).sb = s.sb := rfl
@[simp] theorem State.setCtx_torus (s : State) (t h : Nat) (c : Ctx) : (s.setCtx t h c).torus = s.torus := rfl
@[simp] theorem State.setCtx_hport (s : State) (t h : Nat) (c : Ctx) : (s.setCtx t h c).hport = s.hport := rfl
@[simp] theorem State.setCtx_pkg (s : State) (t h : Nat) (c : Ctx) : (s.setCtx t h c).pkg = s.pkg := rfl
@[simp] theorem State.setCtx_seen (s : State) (t h : Nat) (c : Ctx) : (s.setCtx t h c).seen = s.seen := rfl
@[simp] theorem State.setCtx_serial (s : State) (t h : Nat) (c : Ctx) : (s.setCtx t h c).serial = s.serial := rfl
@[simp] theorem State.setCtx_early (s : State) (t h : Nat) (c : Ctx) : (s.setCtx t h c).early = s.early := rfl
@[simp] theorem State.setCtx_rrQueue (s : State) (t h : Nat) (c : Ctx) : (s.setCtx t h c).rrQueue = s.rrQueue := rfl
@[simp] theorem State.setCtx_rrLeft (s : State) (t h : Nat) (c : Ctx) : (s.setCtx t h c).rrLeft = s.rrLeft := rfl
@[simp] theorem State.setCtx_decide_ (s : State) (t h : Nat) (c : Ctx) : (s.setCtx t h c).decide_ = s.decide_ := rfl
@[simp] theorem State.setCtx_orders (s : State) (t h : Nat) (c : Ctx) : (s.setCtx t h c).orders = s.orders := rfl
@[simp] theorem State.setCtx_cur (s : State) (t h : Nat) (c : Ctx) : (s.setCtx t h c).cur = s.cur := rfl
@[simp] theorem State.setCtx_pkt (s : State) (t h : Nat) (c : Ctx) : (s.setCtx t h c).pkt = s.pkt := rfl
@[simp] theorem State.setCtx_selPch (s : State) (t h : Nat) (c : Ctx) : (s.setCtx t h c).selPch = s.selPch := rfl
@[simp] theorem State.setCtx_hostRead (s : State) (t h : Nat) (c : Ctx) : (s.setCtx t h c).hostRead = s.hostRead := rfl
@[simp] theorem State.setCtx_agenda (s : State) (t h : Nat) (c : Ctx) : (s.setCtx t h c).agenda = s.agenda := rfl
@[simp] theorem State.setCtx_inputs (s : State) (t h : Nat) (c : Ctx) : (s.setCtx t h c).inputs = s.inputs := rfl
@[simp] theorem State.setCtx_out (s : State) (t h : Nat) (c : Ctx) : (s.setCtx t h c).out = s.out := rfl
@[simp] theorem State.setCtx_scan (s : State) (t h : Nat) (c : Ctx) : (s.setCtx t h c).scan = s.scan := rfl
@[simp] theorem State.setCtx_nextId (s : State) (t h : Nat) (c : Ctx) : (s.setCtx t h c).nextId = s.nextId := rfl
@[simp] theorem State.setCtx_draw (s : State) (t h : Nat) (c : Ctx) : (s.setCtx t h c).draw = s.draw := rfl

/-! ## modCtx -/

@[simp] theorem State.modCtx_now (s : State) (t h : Nat) (f : Ctx → Ctx) : (s.modCtx t h f).now = s.now := rfl
@[simp] theorem State.modCtx_gzero (s : State) (t h : Nat) (f : Ctx → Ctx) : (s.modCtx t h f).gzero = s.gzero := rfl
@[simp] theorem State.modCtx_tiles (s : State) (t h : Nat) (f : Ctx → Ctx) : (s.modCtx t h f).tiles = s.tiles := rfl
@[simp] theorem State.modCtx_fields (s : State) (t h : Nat) (f : Ctx → Ctx) : (s.modCtx t h f).fields = s.fields := rfl
@[simp] theorem State.modCtx_saved (s : State) (t h : Nat) (f : Ctx → Ctx) : (s.modCtx t h f).saved = s.saved := rfl
@[simp] theorem State.modCtx_groups (s : State) (t h : Nat) (f : Ctx → Ctx) : (s.modCtx t h f).groups = s.groups := rfl
@[simp] theorem State.modCtx_finished (s : State) (t h : Nat) (f : Ctx → Ctx) : (s.modCtx t h f).finished = s.finished := rfl
@[simp] theorem State.modCtx_shapes (s : State) (t h : Nat) (f : Ctx → Ctx) : (s.modCtx t h f).shapes = s.shapes := rfl
@[simp] theorem State.modCtx_doms (s : State) (t h : Nat) (f : Ctx → Ctx) : (s.modCtx t h f).doms = s.doms := rfl
@[simp] theorem State.modCtx_away (s : State) (t h : Nat) (f : Ctx → Ctx) : (s.modCtx t h f).away = s.away := rfl
@[simp] theorem State.modCtx_dies (s : State) (t h : Nat) (f : Ctx → Ctx) : (s.modCtx t h f).dies = s.dies := rfl
@[simp] theorem State.modCtx_seqrs (s : State) (t h : Nat) (f : Ctx → Ctx) : (s.modCtx t h f).seqrs = s.seqrs := rfl
@[simp] theorem State.modCtx_cmds (s : State) (t h : Nat) (f : Ctx → Ctx) : (s.modCtx t h f).cmds = s.cmds := rfl
@[simp] theorem State.modCtx_calls (s : State) (t h : Nat) (f : Ctx → Ctx) : (s.modCtx t h f).calls = s.calls := rfl
@[simp] theorem State.modCtx_micro (s : State) (t h : Nat) (f : Ctx → Ctx) : (s.modCtx t h f).micro = s.micro := rfl
@[simp] theorem State.modCtx_starts (s : State) (t h : Nat) (f : Ctx → Ctx) : (s.modCtx t h f).starts = s.starts := rfl
@[simp] theorem State.modCtx_col (s : State) (t h : Nat) (f : Ctx → Ctx) : (s.modCtx t h f).col = s.col := rfl
@[simp] theorem State.modCtx_sb (s : State) (t h : Nat) (f : Ctx → Ctx) : (s.modCtx t h f).sb = s.sb := rfl
@[simp] theorem State.modCtx_torus (s : State) (t h : Nat) (f : Ctx → Ctx) : (s.modCtx t h f).torus = s.torus := rfl
@[simp] theorem State.modCtx_hport (s : State) (t h : Nat) (f : Ctx → Ctx) : (s.modCtx t h f).hport = s.hport := rfl
@[simp] theorem State.modCtx_pkg (s : State) (t h : Nat) (f : Ctx → Ctx) : (s.modCtx t h f).pkg = s.pkg := rfl
@[simp] theorem State.modCtx_seen (s : State) (t h : Nat) (f : Ctx → Ctx) : (s.modCtx t h f).seen = s.seen := rfl
@[simp] theorem State.modCtx_serial (s : State) (t h : Nat) (f : Ctx → Ctx) : (s.modCtx t h f).serial = s.serial := rfl
@[simp] theorem State.modCtx_early (s : State) (t h : Nat) (f : Ctx → Ctx) : (s.modCtx t h f).early = s.early := rfl
@[simp] theorem State.modCtx_rrQueue (s : State) (t h : Nat) (f : Ctx → Ctx) : (s.modCtx t h f).rrQueue = s.rrQueue := rfl
@[simp] theorem State.modCtx_rrLeft (s : State) (t h : Nat) (f : Ctx → Ctx) : (s.modCtx t h f).rrLeft = s.rrLeft := rfl
@[simp] theorem State.modCtx_decide_ (s : State) (t h : Nat) (f : Ctx → Ctx) : (s.modCtx t h f).decide_ = s.decide_ := rfl
@[simp] theorem State.modCtx_orders (s : State) (t h : Nat) (f : Ctx → Ctx) : (s.modCtx t h f).orders = s.orders := rfl
@[simp] theorem State.modCtx_cur (s : State) (t h : Nat) (f : Ctx → Ctx) : (s.modCtx t h f).cur = s.cur := rfl
@[simp] theorem State.modCtx_pkt (s : State) (t h : Nat) (f : Ctx → Ctx) : (s.modCtx t h f).pkt = s.pkt := rfl
@[simp] theorem State.modCtx_selPch (s : State) (t h : Nat) (f : Ctx → Ctx) : (s.modCtx t h f).selPch = s.selPch := rfl
@[simp] theorem State.modCtx_hostRead (s : State) (t h : Nat) (f : Ctx → Ctx) : (s.modCtx t h f).hostRead = s.hostRead := rfl
@[simp] theorem State.modCtx_agenda (s : State) (t h : Nat) (f : Ctx → Ctx) : (s.modCtx t h f).agenda = s.agenda := rfl
@[simp] theorem State.modCtx_inputs (s : State) (t h : Nat) (f : Ctx → Ctx) : (s.modCtx t h f).inputs = s.inputs := rfl
@[simp] theorem State.modCtx_out (s : State) (t h : Nat) (f : Ctx → Ctx) : (s.modCtx t h f).out = s.out := rfl
@[simp] theorem State.modCtx_scan (s : State) (t h : Nat) (f : Ctx → Ctx) : (s.modCtx t h f).scan = s.scan := rfl
@[simp] theorem State.modCtx_nextId (s : State) (t h : Nat) (f : Ctx → Ctx) : (s.modCtx t h f).nextId = s.nextId := rfl
@[simp] theorem State.modCtx_draw (s : State) (t h : Nat) (f : Ctx → Ctx) : (s.modCtx t h f).draw = s.draw := rfl

/-! ## setTile -/

@[simp] theorem State.setTile_now (s : State) (t : Nat) (x : Tile) : (s.setTile t x).now = s.now := rfl
@[simp] theorem State.setTile_gzero (s : State) (t : Nat) (x : Tile) : (s.setTile t x).gzero = s.gzero := rfl
@[simp] theorem State.setTile_ctxs (s : State) (t : Nat) (x : Tile) : (s.setTile t x).ctxs = s.ctxs := rfl
@[simp] theorem State.setTile_fields (s : State) (t : Nat) (x : Tile) : (s.setTile t x).fields = s.fields := rfl
@[simp] theorem State.setTile_saved (s : State) (t : Nat) (x : Tile) : (s.setTile t x).saved = s.saved := rfl
@[simp] theorem State.setTile_groups (s : State) (t : Nat) (x : Tile) : (s.setTile t x).groups = s.groups := rfl
@[simp] theorem State.setTile_finished (s : State) (t : Nat) (x : Tile) : (s.setTile t x).finished = s.finished := rfl
@[simp] theorem State.setTile_shapes (s : State) (t : Nat) (x : Tile) : (s.setTile t x).shapes = s.shapes := rfl
@[simp] theorem State.setTile_doms (s : State) (t : Nat) (x : Tile) : (s.setTile t x).doms = s.doms := rfl
@[simp] theorem State.setTile_away (s : State) (t : Nat) (x : Tile) : (s.setTile t x).away = s.away := rfl
@[simp] theorem State.setTile_dies (s : State) (t : Nat) (x : Tile) : (s.setTile t x).dies = s.dies := rfl
@[simp] theorem State.setTile_seqrs (s : State) (t : Nat) (x : Tile) : (s.setTile t x).seqrs = s.seqrs := rfl
@[simp] theorem State.setTile_cmds (s : State) (t : Nat) (x : Tile) : (s.setTile t x).cmds = s.cmds := rfl
@[simp] theorem State.setTile_calls (s : State) (t : Nat) (x : Tile) : (s.setTile t x).calls = s.calls := rfl
@[simp] theorem State.setTile_micro (s : State) (t : Nat) (x : Tile) : (s.setTile t x).micro = s.micro := rfl
@[simp] theorem State.setTile_starts (s : State) (t : Nat) (x : Tile) : (s.setTile t x).starts = s.starts := rfl
@[simp] theorem State.setTile_col (s : State) (t : Nat) (x : Tile) : (s.setTile t x).col = s.col := rfl
@[simp] theorem State.setTile_sb (s : State) (t : Nat) (x : Tile) : (s.setTile t x).sb = s.sb := rfl
@[simp] theorem State.setTile_torus (s : State) (t : Nat) (x : Tile) : (s.setTile t x).torus = s.torus := rfl
@[simp] theorem State.setTile_hport (s : State) (t : Nat) (x : Tile) : (s.setTile t x).hport = s.hport := rfl
@[simp] theorem State.setTile_pkg (s : State) (t : Nat) (x : Tile) : (s.setTile t x).pkg = s.pkg := rfl
@[simp] theorem State.setTile_seen (s : State) (t : Nat) (x : Tile) : (s.setTile t x).seen = s.seen := rfl
@[simp] theorem State.setTile_serial (s : State) (t : Nat) (x : Tile) : (s.setTile t x).serial = s.serial := rfl
@[simp] theorem State.setTile_early (s : State) (t : Nat) (x : Tile) : (s.setTile t x).early = s.early := rfl
@[simp] theorem State.setTile_rrQueue (s : State) (t : Nat) (x : Tile) : (s.setTile t x).rrQueue = s.rrQueue := rfl
@[simp] theorem State.setTile_rrLeft (s : State) (t : Nat) (x : Tile) : (s.setTile t x).rrLeft = s.rrLeft := rfl
@[simp] theorem State.setTile_decide_ (s : State) (t : Nat) (x : Tile) : (s.setTile t x).decide_ = s.decide_ := rfl
@[simp] theorem State.setTile_orders (s : State) (t : Nat) (x : Tile) : (s.setTile t x).orders = s.orders := rfl
@[simp] theorem State.setTile_cur (s : State) (t : Nat) (x : Tile) : (s.setTile t x).cur = s.cur := rfl
@[simp] theorem State.setTile_pkt (s : State) (t : Nat) (x : Tile) : (s.setTile t x).pkt = s.pkt := rfl
@[simp] theorem State.setTile_selPch (s : State) (t : Nat) (x : Tile) : (s.setTile t x).selPch = s.selPch := rfl
@[simp] theorem State.setTile_hostRead (s : State) (t : Nat) (x : Tile) : (s.setTile t x).hostRead = s.hostRead := rfl
@[simp] theorem State.setTile_agenda (s : State) (t : Nat) (x : Tile) : (s.setTile t x).agenda = s.agenda := rfl
@[simp] theorem State.setTile_inputs (s : State) (t : Nat) (x : Tile) : (s.setTile t x).inputs = s.inputs := rfl
@[simp] theorem State.setTile_out (s : State) (t : Nat) (x : Tile) : (s.setTile t x).out = s.out := rfl
@[simp] theorem State.setTile_scan (s : State) (t : Nat) (x : Tile) : (s.setTile t x).scan = s.scan := rfl
@[simp] theorem State.setTile_nextId (s : State) (t : Nat) (x : Tile) : (s.setTile t x).nextId = s.nextId := rfl
@[simp] theorem State.setTile_draw (s : State) (t : Nat) (x : Tile) : (s.setTile t x).draw = s.draw := rfl

/-! ## modTile -/

@[simp] theorem State.modTile_now (s : State) (t : Nat) (f : Tile → Tile) : (s.modTile t f).now = s.now := rfl
@[simp] theorem State.modTile_gzero (s : State) (t : Nat) (f : Tile → Tile) : (s.modTile t f).gzero = s.gzero := rfl
@[simp] theorem State.modTile_ctxs (s : State) (t : Nat) (f : Tile → Tile) : (s.modTile t f).ctxs = s.ctxs := rfl
@[simp] theorem State.modTile_fields (s : State) (t : Nat) (f : Tile → Tile) : (s.modTile t f).fields = s.fields := rfl
@[simp] theorem State.modTile_saved (s : State) (t : Nat) (f : Tile → Tile) : (s.modTile t f).saved = s.saved := rfl
@[simp] theorem State.modTile_groups (s : State) (t : Nat) (f : Tile → Tile) : (s.modTile t f).groups = s.groups := rfl
@[simp] theorem State.modTile_finished (s : State) (t : Nat) (f : Tile → Tile) : (s.modTile t f).finished = s.finished := rfl
@[simp] theorem State.modTile_shapes (s : State) (t : Nat) (f : Tile → Tile) : (s.modTile t f).shapes = s.shapes := rfl
@[simp] theorem State.modTile_doms (s : State) (t : Nat) (f : Tile → Tile) : (s.modTile t f).doms = s.doms := rfl
@[simp] theorem State.modTile_away (s : State) (t : Nat) (f : Tile → Tile) : (s.modTile t f).away = s.away := rfl
@[simp] theorem State.modTile_dies (s : State) (t : Nat) (f : Tile → Tile) : (s.modTile t f).dies = s.dies := rfl
@[simp] theorem State.modTile_seqrs (s : State) (t : Nat) (f : Tile → Tile) : (s.modTile t f).seqrs = s.seqrs := rfl
@[simp] theorem State.modTile_cmds (s : State) (t : Nat) (f : Tile → Tile) : (s.modTile t f).cmds = s.cmds := rfl
@[simp] theorem State.modTile_calls (s : State) (t : Nat) (f : Tile → Tile) : (s.modTile t f).calls = s.calls := rfl
@[simp] theorem State.modTile_micro (s : State) (t : Nat) (f : Tile → Tile) : (s.modTile t f).micro = s.micro := rfl
@[simp] theorem State.modTile_starts (s : State) (t : Nat) (f : Tile → Tile) : (s.modTile t f).starts = s.starts := rfl
@[simp] theorem State.modTile_col (s : State) (t : Nat) (f : Tile → Tile) : (s.modTile t f).col = s.col := rfl
@[simp] theorem State.modTile_sb (s : State) (t : Nat) (f : Tile → Tile) : (s.modTile t f).sb = s.sb := rfl
@[simp] theorem State.modTile_torus (s : State) (t : Nat) (f : Tile → Tile) : (s.modTile t f).torus = s.torus := rfl
@[simp] theorem State.modTile_hport (s : State) (t : Nat) (f : Tile → Tile) : (s.modTile t f).hport = s.hport := rfl
@[simp] theorem State.modTile_pkg (s : State) (t : Nat) (f : Tile → Tile) : (s.modTile t f).pkg = s.pkg := rfl
@[simp] theorem State.modTile_seen (s : State) (t : Nat) (f : Tile → Tile) : (s.modTile t f).seen = s.seen := rfl
@[simp] theorem State.modTile_serial (s : State) (t : Nat) (f : Tile → Tile) : (s.modTile t f).serial = s.serial := rfl
@[simp] theorem State.modTile_early (s : State) (t : Nat) (f : Tile → Tile) : (s.modTile t f).early = s.early := rfl
@[simp] theorem State.modTile_rrQueue (s : State) (t : Nat) (f : Tile → Tile) : (s.modTile t f).rrQueue = s.rrQueue := rfl
@[simp] theorem State.modTile_rrLeft (s : State) (t : Nat) (f : Tile → Tile) : (s.modTile t f).rrLeft = s.rrLeft := rfl
@[simp] theorem State.modTile_decide_ (s : State) (t : Nat) (f : Tile → Tile) : (s.modTile t f).decide_ = s.decide_ := rfl
@[simp] theorem State.modTile_orders (s : State) (t : Nat) (f : Tile → Tile) : (s.modTile t f).orders = s.orders := rfl
@[simp] theorem State.modTile_cur (s : State) (t : Nat) (f : Tile → Tile) : (s.modTile t f).cur = s.cur := rfl
@[simp] theorem State.modTile_pkt (s : State) (t : Nat) (f : Tile → Tile) : (s.modTile t f).pkt = s.pkt := rfl
@[simp] theorem State.modTile_selPch (s : State) (t : Nat) (f : Tile → Tile) : (s.modTile t f).selPch = s.selPch := rfl
@[simp] theorem State.modTile_hostRead (s : State) (t : Nat) (f : Tile → Tile) : (s.modTile t f).hostRead = s.hostRead := rfl
@[simp] theorem State.modTile_agenda (s : State) (t : Nat) (f : Tile → Tile) : (s.modTile t f).agenda = s.agenda := rfl
@[simp] theorem State.modTile_inputs (s : State) (t : Nat) (f : Tile → Tile) : (s.modTile t f).inputs = s.inputs := rfl
@[simp] theorem State.modTile_out (s : State) (t : Nat) (f : Tile → Tile) : (s.modTile t f).out = s.out := rfl
@[simp] theorem State.modTile_scan (s : State) (t : Nat) (f : Tile → Tile) : (s.modTile t f).scan = s.scan := rfl
@[simp] theorem State.modTile_nextId (s : State) (t : Nat) (f : Tile → Tile) : (s.modTile t f).nextId = s.nextId := rfl
@[simp] theorem State.modTile_draw (s : State) (t : Nat) (f : Tile → Tile) : (s.modTile t f).draw = s.draw := rfl

/-! ## modDie -/

@[simp] theorem State.modDie_now (s : State) (d : Nat) (f : Die → Die) : (s.modDie d f).now = s.now := rfl
@[simp] theorem State.modDie_gzero (s : State) (d : Nat) (f : Die → Die) : (s.modDie d f).gzero = s.gzero := rfl
@[simp] theorem State.modDie_ctxs (s : State) (d : Nat) (f : Die → Die) : (s.modDie d f).ctxs = s.ctxs := rfl
@[simp] theorem State.modDie_tiles (s : State) (d : Nat) (f : Die → Die) : (s.modDie d f).tiles = s.tiles := rfl
@[simp] theorem State.modDie_fields (s : State) (d : Nat) (f : Die → Die) : (s.modDie d f).fields = s.fields := rfl
@[simp] theorem State.modDie_saved (s : State) (d : Nat) (f : Die → Die) : (s.modDie d f).saved = s.saved := rfl
@[simp] theorem State.modDie_groups (s : State) (d : Nat) (f : Die → Die) : (s.modDie d f).groups = s.groups := rfl
@[simp] theorem State.modDie_finished (s : State) (d : Nat) (f : Die → Die) : (s.modDie d f).finished = s.finished := rfl
@[simp] theorem State.modDie_shapes (s : State) (d : Nat) (f : Die → Die) : (s.modDie d f).shapes = s.shapes := rfl
@[simp] theorem State.modDie_doms (s : State) (d : Nat) (f : Die → Die) : (s.modDie d f).doms = s.doms := rfl
@[simp] theorem State.modDie_away (s : State) (d : Nat) (f : Die → Die) : (s.modDie d f).away = s.away := rfl
@[simp] theorem State.modDie_seqrs (s : State) (d : Nat) (f : Die → Die) : (s.modDie d f).seqrs = s.seqrs := rfl
@[simp] theorem State.modDie_cmds (s : State) (d : Nat) (f : Die → Die) : (s.modDie d f).cmds = s.cmds := rfl
@[simp] theorem State.modDie_calls (s : State) (d : Nat) (f : Die → Die) : (s.modDie d f).calls = s.calls := rfl
@[simp] theorem State.modDie_micro (s : State) (d : Nat) (f : Die → Die) : (s.modDie d f).micro = s.micro := rfl
@[simp] theorem State.modDie_starts (s : State) (d : Nat) (f : Die → Die) : (s.modDie d f).starts = s.starts := rfl
@[simp] theorem State.modDie_col (s : State) (d : Nat) (f : Die → Die) : (s.modDie d f).col = s.col := rfl
@[simp] theorem State.modDie_sb (s : State) (d : Nat) (f : Die → Die) : (s.modDie d f).sb = s.sb := rfl
@[simp] theorem State.modDie_torus (s : State) (d : Nat) (f : Die → Die) : (s.modDie d f).torus = s.torus := rfl
@[simp] theorem State.modDie_hport (s : State) (d : Nat) (f : Die → Die) : (s.modDie d f).hport = s.hport := rfl
@[simp] theorem State.modDie_pkg (s : State) (d : Nat) (f : Die → Die) : (s.modDie d f).pkg = s.pkg := rfl
@[simp] theorem State.modDie_seen (s : State) (d : Nat) (f : Die → Die) : (s.modDie d f).seen = s.seen := rfl
@[simp] theorem State.modDie_serial (s : State) (d : Nat) (f : Die → Die) : (s.modDie d f).serial = s.serial := rfl
@[simp] theorem State.modDie_early (s : State) (d : Nat) (f : Die → Die) : (s.modDie d f).early = s.early := rfl
@[simp] theorem State.modDie_rrQueue (s : State) (d : Nat) (f : Die → Die) : (s.modDie d f).rrQueue = s.rrQueue := rfl
@[simp] theorem State.modDie_rrLeft (s : State) (d : Nat) (f : Die → Die) : (s.modDie d f).rrLeft = s.rrLeft := rfl
@[simp] theorem State.modDie_decide_ (s : State) (d : Nat) (f : Die → Die) : (s.modDie d f).decide_ = s.decide_ := rfl
@[simp] theorem State.modDie_orders (s : State) (d : Nat) (f : Die → Die) : (s.modDie d f).orders = s.orders := rfl
@[simp] theorem State.modDie_cur (s : State) (d : Nat) (f : Die → Die) : (s.modDie d f).cur = s.cur := rfl
@[simp] theorem State.modDie_pkt (s : State) (d : Nat) (f : Die → Die) : (s.modDie d f).pkt = s.pkt := rfl
@[simp] theorem State.modDie_selPch (s : State) (d : Nat) (f : Die → Die) : (s.modDie d f).selPch = s.selPch := rfl
@[simp] theorem State.modDie_hostRead (s : State) (d : Nat) (f : Die → Die) : (s.modDie d f).hostRead = s.hostRead := rfl
@[simp] theorem State.modDie_agenda (s : State) (d : Nat) (f : Die → Die) : (s.modDie d f).agenda = s.agenda := rfl
@[simp] theorem State.modDie_inputs (s : State) (d : Nat) (f : Die → Die) : (s.modDie d f).inputs = s.inputs := rfl
@[simp] theorem State.modDie_out (s : State) (d : Nat) (f : Die → Die) : (s.modDie d f).out = s.out := rfl
@[simp] theorem State.modDie_scan (s : State) (d : Nat) (f : Die → Die) : (s.modDie d f).scan = s.scan := rfl
@[simp] theorem State.modDie_nextId (s : State) (d : Nat) (f : Die → Die) : (s.modDie d f).nextId = s.nextId := rfl
@[simp] theorem State.modDie_draw (s : State) (d : Nat) (f : Die → Die) : (s.modDie d f).draw = s.draw := rfl

/-! ## at -/

@[simp] theorem State.at_now (s : State) (clk : Option Nat) (t ph : Nat) (ev : Instr) : (s.at clk t ph ev).now = s.now := rfl
@[simp] theorem State.at_gzero (s : State) (clk : Option Nat) (t ph : Nat) (ev : Instr) : (s.at clk t ph ev).gzero = s.gzero := rfl
@[simp] theorem State.at_ctxs (s : State) (clk : Option Nat) (t ph : Nat) (ev : Instr) : (s.at clk t ph ev).ctxs = s.ctxs := rfl
@[simp] theorem State.at_tiles (s : State) (clk : Option Nat) (t ph : Nat) (ev : Instr) : (s.at clk t ph ev).tiles = s.tiles := rfl
@[simp] theorem State.at_fields (s : State) (clk : Option Nat) (t ph : Nat) (ev : Instr) : (s.at clk t ph ev).fields = s.fields := rfl
@[simp] theorem State.at_saved (s : State) (clk : Option Nat) (t ph : Nat) (ev : Instr) : (s.at clk t ph ev).saved = s.saved := rfl
@[simp] theorem State.at_groups (s : State) (clk : Option Nat) (t ph : Nat) (ev : Instr) : (s.at clk t ph ev).groups = s.groups := rfl
@[simp] theorem State.at_finished (s : State) (clk : Option Nat) (t ph : Nat) (ev : Instr) : (s.at clk t ph ev).finished = s.finished := rfl
@[simp] theorem State.at_shapes (s : State) (clk : Option Nat) (t ph : Nat) (ev : Instr) : (s.at clk t ph ev).shapes = s.shapes := rfl
@[simp] theorem State.at_doms (s : State) (clk : Option Nat) (t ph : Nat) (ev : Instr) : (s.at clk t ph ev).doms = s.doms := rfl
@[simp] theorem State.at_away (s : State) (clk : Option Nat) (t ph : Nat) (ev : Instr) : (s.at clk t ph ev).away = s.away := rfl
@[simp] theorem State.at_dies (s : State) (clk : Option Nat) (t ph : Nat) (ev : Instr) : (s.at clk t ph ev).dies = s.dies := rfl
@[simp] theorem State.at_seqrs (s : State) (clk : Option Nat) (t ph : Nat) (ev : Instr) : (s.at clk t ph ev).seqrs = s.seqrs := rfl
@[simp] theorem State.at_cmds (s : State) (clk : Option Nat) (t ph : Nat) (ev : Instr) : (s.at clk t ph ev).cmds = s.cmds := rfl
@[simp] theorem State.at_calls (s : State) (clk : Option Nat) (t ph : Nat) (ev : Instr) : (s.at clk t ph ev).calls = s.calls := rfl
@[simp] theorem State.at_micro (s : State) (clk : Option Nat) (t ph : Nat) (ev : Instr) : (s.at clk t ph ev).micro = s.micro := rfl
@[simp] theorem State.at_starts (s : State) (clk : Option Nat) (t ph : Nat) (ev : Instr) : (s.at clk t ph ev).starts = s.starts := rfl
@[simp] theorem State.at_col (s : State) (clk : Option Nat) (t ph : Nat) (ev : Instr) : (s.at clk t ph ev).col = s.col := rfl
@[simp] theorem State.at_sb (s : State) (clk : Option Nat) (t ph : Nat) (ev : Instr) : (s.at clk t ph ev).sb = s.sb := rfl
@[simp] theorem State.at_torus (s : State) (clk : Option Nat) (t ph : Nat) (ev : Instr) : (s.at clk t ph ev).torus = s.torus := rfl
@[simp] theorem State.at_hport (s : State) (clk : Option Nat) (t ph : Nat) (ev : Instr) : (s.at clk t ph ev).hport = s.hport := rfl
@[simp] theorem State.at_pkg (s : State) (clk : Option Nat) (t ph : Nat) (ev : Instr) : (s.at clk t ph ev).pkg = s.pkg := rfl
@[simp] theorem State.at_seen (s : State) (clk : Option Nat) (t ph : Nat) (ev : Instr) : (s.at clk t ph ev).seen = s.seen := rfl
@[simp] theorem State.at_serial (s : State) (clk : Option Nat) (t ph : Nat) (ev : Instr) : (s.at clk t ph ev).serial = s.serial := rfl
@[simp] theorem State.at_early (s : State) (clk : Option Nat) (t ph : Nat) (ev : Instr) : (s.at clk t ph ev).early = s.early := rfl
@[simp] theorem State.at_rrQueue (s : State) (clk : Option Nat) (t ph : Nat) (ev : Instr) : (s.at clk t ph ev).rrQueue = s.rrQueue := rfl
@[simp] theorem State.at_rrLeft (s : State) (clk : Option Nat) (t ph : Nat) (ev : Instr) : (s.at clk t ph ev).rrLeft = s.rrLeft := rfl
@[simp] theorem State.at_decide_ (s : State) (clk : Option Nat) (t ph : Nat) (ev : Instr) : (s.at clk t ph ev).decide_ = s.decide_ := rfl
@[simp] theorem State.at_orders (s : State) (clk : Option Nat) (t ph : Nat) (ev : Instr) : (s.at clk t ph ev).orders = s.orders := rfl
@[simp] theorem State.at_cur (s : State) (clk : Option Nat) (t ph : Nat) (ev : Instr) : (s.at clk t ph ev).cur = s.cur := rfl
@[simp] theorem State.at_pkt (s : State) (clk : Option Nat) (t ph : Nat) (ev : Instr) : (s.at clk t ph ev).pkt = s.pkt := rfl
@[simp] theorem State.at_selPch (s : State) (clk : Option Nat) (t ph : Nat) (ev : Instr) : (s.at clk t ph ev).selPch = s.selPch := rfl
@[simp] theorem State.at_hostRead (s : State) (clk : Option Nat) (t ph : Nat) (ev : Instr) : (s.at clk t ph ev).hostRead = s.hostRead := rfl
@[simp] theorem State.at_inputs (s : State) (clk : Option Nat) (t ph : Nat) (ev : Instr) : (s.at clk t ph ev).inputs = s.inputs := rfl
@[simp] theorem State.at_out (s : State) (clk : Option Nat) (t ph : Nat) (ev : Instr) : (s.at clk t ph ev).out = s.out := rfl
@[simp] theorem State.at_scan (s : State) (clk : Option Nat) (t ph : Nat) (ev : Instr) : (s.at clk t ph ev).scan = s.scan := rfl
@[simp] theorem State.at_draw (s : State) (clk : Option Nat) (t ph : Nat) (ev : Instr) : (s.at clk t ph ev).draw = s.draw := rfl

/-! ## emit -/

@[simp] theorem State.emit_now (s : State) (o : Out) : (s.emit o).now = s.now := rfl
@[simp] theorem State.emit_gzero (s : State) (o : Out) : (s.emit o).gzero = s.gzero := rfl
@[simp] theorem State.emit_ctxs (s : State) (o : Out) : (s.emit o).ctxs = s.ctxs := rfl
@[simp] theorem State.emit_tiles (s : State) (o : Out) : (s.emit o).tiles = s.tiles := rfl
@[simp] theorem State.emit_fields (s : State) (o : Out) : (s.emit o).fields = s.fields := rfl
@[simp] theorem State.emit_saved (s : State) (o : Out) : (s.emit o).saved = s.saved := rfl
@[simp] theorem State.emit_groups (s : State) (o : Out) : (s.emit o).groups = s.groups := rfl
@[simp] theorem State.emit_finished (s : State) (o : Out) : (s.emit o).finished = s.finished := rfl
@[simp] theorem State.emit_shapes (s : State) (o : Out) : (s.emit o).shapes = s.shapes := rfl
@[simp] theorem State.emit_doms (s : State) (o : Out) : (s.emit o).doms = s.doms := rfl
@[simp] theorem State.emit_away (s : State) (o : Out) : (s.emit o).away = s.away := rfl
@[simp] theorem State.emit_dies (s : State) (o : Out) : (s.emit o).dies = s.dies := rfl
@[simp] theorem State.emit_seqrs (s : State) (o : Out) : (s.emit o).seqrs = s.seqrs := rfl
@[simp] theorem State.emit_cmds (s : State) (o : Out) : (s.emit o).cmds = s.cmds := rfl
@[simp] theorem State.emit_calls (s : State) (o : Out) : (s.emit o).calls = s.calls := rfl
@[simp] theorem State.emit_micro (s : State) (o : Out) : (s.emit o).micro = s.micro := rfl
@[simp] theorem State.emit_starts (s : State) (o : Out) : (s.emit o).starts = s.starts := rfl
@[simp] theorem State.emit_col (s : State) (o : Out) : (s.emit o).col = s.col := rfl
@[simp] theorem State.emit_sb (s : State) (o : Out) : (s.emit o).sb = s.sb := rfl
@[simp] theorem State.emit_torus (s : State) (o : Out) : (s.emit o).torus = s.torus := rfl
@[simp] theorem State.emit_hport (s : State) (o : Out) : (s.emit o).hport = s.hport := rfl
@[simp] theorem State.emit_pkg (s : State) (o : Out) : (s.emit o).pkg = s.pkg := rfl
@[simp] theorem State.emit_seen (s : State) (o : Out) : (s.emit o).seen = s.seen := rfl
@[simp] theorem State.emit_serial (s : State) (o : Out) : (s.emit o).serial = s.serial := rfl
@[simp] theorem State.emit_early (s : State) (o : Out) : (s.emit o).early = s.early := rfl
@[simp] theorem State.emit_rrQueue (s : State) (o : Out) : (s.emit o).rrQueue = s.rrQueue := rfl
@[simp] theorem State.emit_rrLeft (s : State) (o : Out) : (s.emit o).rrLeft = s.rrLeft := rfl
@[simp] theorem State.emit_decide_ (s : State) (o : Out) : (s.emit o).decide_ = s.decide_ := rfl
@[simp] theorem State.emit_orders (s : State) (o : Out) : (s.emit o).orders = s.orders := rfl
@[simp] theorem State.emit_cur (s : State) (o : Out) : (s.emit o).cur = s.cur := rfl
@[simp] theorem State.emit_pkt (s : State) (o : Out) : (s.emit o).pkt = s.pkt := rfl
@[simp] theorem State.emit_selPch (s : State) (o : Out) : (s.emit o).selPch = s.selPch := rfl
@[simp] theorem State.emit_hostRead (s : State) (o : Out) : (s.emit o).hostRead = s.hostRead := rfl
@[simp] theorem State.emit_agenda (s : State) (o : Out) : (s.emit o).agenda = s.agenda := rfl
@[simp] theorem State.emit_inputs (s : State) (o : Out) : (s.emit o).inputs = s.inputs := rfl
@[simp] theorem State.emit_scan (s : State) (o : Out) : (s.emit o).scan = s.scan := rfl
@[simp] theorem State.emit_nextId (s : State) (o : Out) : (s.emit o).nextId = s.nextId := rfl
@[simp] theorem State.emit_draw (s : State) (o : Out) : (s.emit o).draw = s.draw := rfl

/-! ## result -/

@[simp] theorem State.result_now (s : State) (lat ph sl : Nat) (fl : BitVec 7) (d : Dest) : (s.result lat ph sl fl d).now = s.now := rfl
@[simp] theorem State.result_gzero (s : State) (lat ph sl : Nat) (fl : BitVec 7) (d : Dest) : (s.result lat ph sl fl d).gzero = s.gzero := rfl
@[simp] theorem State.result_tiles (s : State) (lat ph sl : Nat) (fl : BitVec 7) (d : Dest) : (s.result lat ph sl fl d).tiles = s.tiles := rfl
@[simp] theorem State.result_fields (s : State) (lat ph sl : Nat) (fl : BitVec 7) (d : Dest) : (s.result lat ph sl fl d).fields = s.fields := rfl
@[simp] theorem State.result_saved (s : State) (lat ph sl : Nat) (fl : BitVec 7) (d : Dest) : (s.result lat ph sl fl d).saved = s.saved := rfl
@[simp] theorem State.result_groups (s : State) (lat ph sl : Nat) (fl : BitVec 7) (d : Dest) : (s.result lat ph sl fl d).groups = s.groups := rfl
@[simp] theorem State.result_finished (s : State) (lat ph sl : Nat) (fl : BitVec 7) (d : Dest) : (s.result lat ph sl fl d).finished = s.finished := rfl
@[simp] theorem State.result_shapes (s : State) (lat ph sl : Nat) (fl : BitVec 7) (d : Dest) : (s.result lat ph sl fl d).shapes = s.shapes := rfl
@[simp] theorem State.result_doms (s : State) (lat ph sl : Nat) (fl : BitVec 7) (d : Dest) : (s.result lat ph sl fl d).doms = s.doms := rfl
@[simp] theorem State.result_away (s : State) (lat ph sl : Nat) (fl : BitVec 7) (d : Dest) : (s.result lat ph sl fl d).away = s.away := rfl
@[simp] theorem State.result_dies (s : State) (lat ph sl : Nat) (fl : BitVec 7) (d : Dest) : (s.result lat ph sl fl d).dies = s.dies := rfl
@[simp] theorem State.result_seqrs (s : State) (lat ph sl : Nat) (fl : BitVec 7) (d : Dest) : (s.result lat ph sl fl d).seqrs = s.seqrs := rfl
@[simp] theorem State.result_cmds (s : State) (lat ph sl : Nat) (fl : BitVec 7) (d : Dest) : (s.result lat ph sl fl d).cmds = s.cmds := rfl
@[simp] theorem State.result_calls (s : State) (lat ph sl : Nat) (fl : BitVec 7) (d : Dest) : (s.result lat ph sl fl d).calls = s.calls := rfl
@[simp] theorem State.result_micro (s : State) (lat ph sl : Nat) (fl : BitVec 7) (d : Dest) : (s.result lat ph sl fl d).micro = s.micro := rfl
@[simp] theorem State.result_starts (s : State) (lat ph sl : Nat) (fl : BitVec 7) (d : Dest) : (s.result lat ph sl fl d).starts = s.starts := rfl
@[simp] theorem State.result_col (s : State) (lat ph sl : Nat) (fl : BitVec 7) (d : Dest) : (s.result lat ph sl fl d).col = s.col := rfl
@[simp] theorem State.result_sb (s : State) (lat ph sl : Nat) (fl : BitVec 7) (d : Dest) : (s.result lat ph sl fl d).sb = s.sb := rfl
@[simp] theorem State.result_torus (s : State) (lat ph sl : Nat) (fl : BitVec 7) (d : Dest) : (s.result lat ph sl fl d).torus = s.torus := rfl
@[simp] theorem State.result_hport (s : State) (lat ph sl : Nat) (fl : BitVec 7) (d : Dest) : (s.result lat ph sl fl d).hport = s.hport := rfl
@[simp] theorem State.result_pkg (s : State) (lat ph sl : Nat) (fl : BitVec 7) (d : Dest) : (s.result lat ph sl fl d).pkg = s.pkg := rfl
@[simp] theorem State.result_seen (s : State) (lat ph sl : Nat) (fl : BitVec 7) (d : Dest) : (s.result lat ph sl fl d).seen = s.seen := rfl
@[simp] theorem State.result_serial (s : State) (lat ph sl : Nat) (fl : BitVec 7) (d : Dest) : (s.result lat ph sl fl d).serial = s.serial := rfl
@[simp] theorem State.result_early (s : State) (lat ph sl : Nat) (fl : BitVec 7) (d : Dest) : (s.result lat ph sl fl d).early = s.early := rfl
@[simp] theorem State.result_rrQueue (s : State) (lat ph sl : Nat) (fl : BitVec 7) (d : Dest) : (s.result lat ph sl fl d).rrQueue = s.rrQueue := rfl
@[simp] theorem State.result_rrLeft (s : State) (lat ph sl : Nat) (fl : BitVec 7) (d : Dest) : (s.result lat ph sl fl d).rrLeft = s.rrLeft := rfl
@[simp] theorem State.result_decide_ (s : State) (lat ph sl : Nat) (fl : BitVec 7) (d : Dest) : (s.result lat ph sl fl d).decide_ = s.decide_ := rfl
@[simp] theorem State.result_orders (s : State) (lat ph sl : Nat) (fl : BitVec 7) (d : Dest) : (s.result lat ph sl fl d).orders = s.orders := rfl
@[simp] theorem State.result_cur (s : State) (lat ph sl : Nat) (fl : BitVec 7) (d : Dest) : (s.result lat ph sl fl d).cur = s.cur := rfl
@[simp] theorem State.result_pkt (s : State) (lat ph sl : Nat) (fl : BitVec 7) (d : Dest) : (s.result lat ph sl fl d).pkt = s.pkt := rfl
@[simp] theorem State.result_selPch (s : State) (lat ph sl : Nat) (fl : BitVec 7) (d : Dest) : (s.result lat ph sl fl d).selPch = s.selPch := rfl
@[simp] theorem State.result_hostRead (s : State) (lat ph sl : Nat) (fl : BitVec 7) (d : Dest) : (s.result lat ph sl fl d).hostRead = s.hostRead := rfl
@[simp] theorem State.result_inputs (s : State) (lat ph sl : Nat) (fl : BitVec 7) (d : Dest) : (s.result lat ph sl fl d).inputs = s.inputs := rfl
@[simp] theorem State.result_out (s : State) (lat ph sl : Nat) (fl : BitVec 7) (d : Dest) : (s.result lat ph sl fl d).out = s.out := rfl
@[simp] theorem State.result_scan (s : State) (lat ph sl : Nat) (fl : BitVec 7) (d : Dest) : (s.result lat ph sl fl d).scan = s.scan := rfl
@[simp] theorem State.result_draw (s : State) (lat ph sl : Nat) (fl : BitVec 7) (d : Dest) : (s.result lat ph sl fl d).draw = s.draw := rfl

/-! ## What is read after an update -/

theorem State.ctx_setCtx (s : State) (t h : Nat) (c : Ctx) (x k : Nat) :
    (s.setCtx t h c).ctx x k = if 4 * x + k = 4 * t + h then c else s.ctx x k := Table.rd_insert ..

@[simp] theorem State.ctx_setCtx_self (s : State) (t h : Nat) (c : Ctx) : (s.setCtx t h c).ctx t h = c := by
  simp [State.ctx_setCtx]

@[simp] theorem State.ctx_modCtx_self (s : State) (t h : Nat) (f : Ctx → Ctx) : (s.modCtx t h f).ctx t h = f (s.ctx t h) := by
  simp [State.modCtx]

@[simp] theorem State.tile_setCtx (s : State) (t h : Nat) (c : Ctx) (x : Nat) : (s.setCtx t h c).tile x = s.tile x := rfl

@[simp] theorem State.tile_modCtx (s : State) (t h : Nat) (f : Ctx → Ctx) (x : Nat) : (s.modCtx t h f).tile x = s.tile x := rfl

theorem State.tile_setTile (s : State) (t : Nat) (y : Tile) (x : Nat) :
    (s.setTile t y).tile x = if x = t then y else s.tile x := Table.rd_insert ..

@[simp] theorem State.tile_setTile_self (s : State) (t : Nat) (y : Tile) : (s.setTile t y).tile t = y := by
  simp [State.tile_setTile]

@[simp] theorem State.ctx_setTile (s : State) (t : Nat) (y : Tile) (x k : Nat) : (s.setTile t y).ctx x k = s.ctx x k := rfl

@[simp] theorem State.ctx_modTile (s : State) (t : Nat) (f : Tile → Tile) (x k : Nat) : (s.modTile t f).ctx x k = s.ctx x k := rfl

@[simp] theorem State.ctx_at (s : State) (clk : Option Nat) (t ph : Nat) (ev : Instr) (x k : Nat) :
    (s.at clk t ph ev).ctx x k = s.ctx x k := rfl

theorem State.die_modDie (s : State) (d : Nat) (f : Die → Die) (x : Nat) :
    (s.modDie d f).die x = if x = d then f (s.die d) else s.die x := Table.rd_insert ..

/-- The issuing context after a result is issued: one more result in flight. -/
@[simp] theorem State.result_cc (s : State) (lat ph sl : Nat) (fl : BitVec 7) (d : Dest) :
    (s.result lat ph sl fl d).cc =
      { s.cc with inflight := s.cc.inflight ++ [⟨s.nextId, s.now + lat, s.nextId, sl, fl, d⟩] } :=
  Table.rd_insert_self ..

theorem State.result_ctx (s : State) (lat ph sl : Nat) (fl : BitVec 7) (d : Dest) (x k : Nat)
    (h : 4 * x + k ≠ 4 * s.cur.tile + s.cur.hw) : (s.result lat ph sl fl d).ctx x k = s.ctx x k :=
  Table.rd_insert_ne _ _ _ _ _ h

/-- Results put among others lose none and add none (R329). -/
theorem insertResult_perm (r : Result) (l : List Result) : (insertResult r l).Perm (r :: l) := by
  induction l with
  | nil => exact .refl _
  | cons x xs ih =>
    unfold insertResult
    split
    · exact .refl _
    · exact (ih.cons x).trans (.swap r x xs)

/-- What a false guard, a true guard and a failed check make of a slot instruction (R343, R357). -/
theorem State.slot_trap (s : State) (g : Guard) (tr : Trap) (act sup : State → State) :
    s.slot g (some tr) act sup = .next (s.issueTrap tr) := rfl

theorem State.slot_act (s : State) (g : Guard) (chk : Option Trap) (act sup : State → State) (h : chk = none)
    (hg : s.cc.guard g = true) : s.slot g chk act sup = .next (act s) := by
  simp [State.slot, h, hg]

theorem State.slot_suppressed (s : State) (g : Guard) (chk : Option Trap) (act sup : State → State) (h : chk = none)
    (hg : s.cc.guard g = false) : s.slot g chk act sup = .next (sup s) := by
  simp [State.slot, h, hg]

/-- A slot instruction always answers a next state. -/
theorem State.slot_next (s : State) (g : Guard) (chk : Option Trap) (act sup : State → State) :
    ∃ t, s.slot g chk act sup = .next t := by
  unfold State.slot
  split <;> exact ⟨_, rfl⟩

end Sys2Proof.Machine
end

