-- ==== Sys2Proof/Tests/Slice0.lean ====
section
/-! SUPPORT. Tests: one word of every encoded row, decoded; ill-formed terms; values that the manual works out; and one
witness for the hypotheses of each statement. Expected values come from the spec. -/

namespace Sys2Proof.Tests
open Sys2Proof Sys2Proof.Machine
set_option Elab.async false
/-- A bundle whose only slot is the one named, its container holding OP, GUARD and body (R338, R339, R341). -/
def inA (op guard body : Nat) : Nat := 2 ^ 380 + (op * 2 ^ 57 + guard * 2 ^ 53 + body) * 2 ^ 304
def inV0 (op guard body : Nat) : Nat := 2 ^ 379 + (op * 2 ^ 57 + guard * 2 ^ 53 + body) * 2 ^ 240
def inV1 (op guard body : Nat) : Nat := 2 ^ 378 + (op * 2 ^ 57 + guard * 2 ^ 53 + body) * 2 ^ 176
def inM (op guard body : Nat) : Nat := 2 ^ 377 + (op * 2 ^ 57 + guard * 2 ^ 53 + body) * 2 ^ 112
def inS (op guard body : Nat) : Nat := 2 ^ 376 + (op * 2 ^ 57 + guard * 2 ^ 53 + body) * 2 ^ 48
def inG (op guard body : Nat) : Nat := 2 ^ 375 + (op * 2 ^ 43 + guard * 2 ^ 39 + body)

/-- A field alone on tile 0, its context 0 about to run the bundle of bits `w`. -/
def probe (w : Nat) : State := State.reset.withFetchWord 384 w
def p0 : State := probe 0
/-- The probe with its context changed. -/
def pc (f : Ctx → Ctx) : State := p0.modCC f
/-- The probe with its place in the bundle changed. -/
def pk (s : State) (f : Cur → Cur) : State := { s with cur := f s.cur }
/-- The probe's context holding `v` in %s n. -/
def ps (n : Nat) (v : W64) : State := pc (fun c => c.putS .user n v)
def yes : Guard := ⟨false, 0⟩
def no : Guard := ⟨true, 0⟩
/-- The state that an instruction leaves. -/
def run (i : Instr) (s : State) : State :=
  match exec i s with
  | .next t => t
  | _ => s

/-! ### The words of the rows: OP, GUARD and body as 12_encoding.md lays them out, each body field in its place -/
theorem test_decode_scalar_registers :
    decodeOne (inS 1 1 (31 * 2 ^ 48 + 1 * 2 ^ 43 + 3 * 2 ^ 37)) = .ok (.addReg ⟨false, 1⟩ 31 1 3) ∧
    decodeOne (inS 2 2 (30 * 2 ^ 48 + 2 * 2 ^ 43 + 5 * 2 ^ 37)) = .ok (.subReg ⟨false, 2⟩ 30 2 5) ∧
    decodeOne (inS 3 3 (29 * 2 ^ 48 + 3 * 2 ^ 43 + 7 * 2 ^ 37)) = .ok (.mulReg ⟨false, 3⟩ 29 3 7) ∧
    decodeOne (inS 4 4 (28 * 2 ^ 48 + 4 * 2 ^ 43 + 9 * 2 ^ 37)) = .ok (.mulhReg ⟨false, 4⟩ 28 4 9) ∧
    decodeOne (inS 5 5 (27 * 2 ^ 48 + 5 * 2 ^ 43 + 11 * 2 ^ 37)) = .ok (.andReg ⟨false, 5⟩ 27 5 11) ∧
    decodeOne (inS 6 6 (26 * 2 ^ 48 + 6 * 2 ^ 43 + 13 * 2 ^ 37)) = .ok (.orReg ⟨false, 6⟩ 26 6 13) ∧
    decodeOne (inS 7 7 (25 * 2 ^ 48 + 7 * 2 ^ 43 + 15 * 2 ^ 37)) = .ok (.xorReg ⟨false, 7⟩ 25 7 15) ∧
    decodeOne (inS 8 8 (24 * 2 ^ 48 + 8 * 2 ^ 43 + 17 * 2 ^ 37)) = .ok (.shlReg ⟨true, 0⟩ 24 8 17) ∧
    decodeOne (inS 9 9 (23 * 2 ^ 48 + 9 * 2 ^ 43 + 19 * 2 ^ 37)) = .ok (.shrReg ⟨true, 1⟩ 23 9 19) ∧
    decodeOne (inS 10 10 (22 * 2 ^ 48 + 10 * 2 ^ 43 + 21 * 2 ^ 37)) = .ok (.sraReg ⟨true, 2⟩ 22 10 21) ∧
    decodeOne (inS 11 11 (21 * 2 ^ 48 + 11 * 2 ^ 43 + 23 * 2 ^ 37)) = .ok (.minReg ⟨true, 3⟩ 21 11 23) ∧
    decodeOne (inS 12 12 (20 * 2 ^ 48 + 12 * 2 ^ 43 + 25 * 2 ^ 37)) = .ok (.maxReg ⟨true, 4⟩ 20 12 25) :=
  ⟨rfl, rfl, rfl, rfl, rfl, rfl, rfl, rfl, rfl, rfl, rfl, rfl⟩

theorem test_decode_scalar_immediates :
    decodeOne (inS 1 1 (31 * 2 ^ 48 + 1 * 2 ^ 43 + 1 * 2 ^ 42 + 2199023255559)) = .ok (.addImm ⟨false, 1⟩ 31 1 2199023255559) ∧
    decodeOne (inS 2 2 (30 * 2 ^ 48 + 2 * 2 ^ 43 + 1 * 2 ^ 42 + 2199023255566)) = .ok (.subImm ⟨false, 2⟩ 30 2 2199023255566) ∧
    decodeOne (inS 3 3 (29 * 2 ^ 48 + 3 * 2 ^ 43 + 1 * 2 ^ 42 + 2199023255573)) = .ok (.mulImm ⟨false, 3⟩ 29 3 2199023255573) ∧
    decodeOne (inS 4 4 (28 * 2 ^ 48 + 4 * 2 ^ 43 + 1 * 2 ^ 42 + 2199023255580)) = .ok (.mulhImm ⟨false, 4⟩ 28 4 2199023255580) ∧
    decodeOne (inS 5 5 (27 * 2 ^ 48 + 5 * 2 ^ 43 + 1 * 2 ^ 42 + 2199023255587)) = .ok (.andImm ⟨false, 5⟩ 27 5 2199023255587) ∧
    decodeOne (inS 6 6 (26 * 2 ^ 48 + 6 * 2 ^ 43 + 1 * 2 ^ 42 + 2199023255594)) = .ok (.orImm ⟨false, 6⟩ 26 6 2199023255594) ∧
    decodeOne (inS 7 7 (25 * 2 ^ 48 + 7 * 2 ^ 43 + 1 * 2 ^ 42 + 2199023255601)) = .ok (.xorImm ⟨false, 7⟩ 25 7 2199023255601) ∧
    decodeOne (inS 8 8 (24 * 2 ^ 48 + 8 * 2 ^ 43 + 1 * 2 ^ 42 + 63)) = .ok (.shlImm ⟨true, 0⟩ 24 8 63) ∧
    decodeOne (inS 9 9 (23 * 2 ^ 48 + 9 * 2 ^ 43 + 1 * 2 ^ 42 + 5)) = .ok (.shrImm ⟨true, 1⟩ 23 9 5) ∧
    decodeOne (inS 10 10 (22 * 2 ^ 48 + 10 * 2 ^ 43 + 1 * 2 ^ 42 + 40)) = .ok (.sraImm ⟨true, 2⟩ 22 10 40) ∧
    decodeOne (inS 11 11 (21 * 2 ^ 48 + 11 * 2 ^ 43 + 1 * 2 ^ 42 + 2199023255629)) = .ok (.minImm ⟨true, 3⟩ 21 11 2199023255629) ∧
    decodeOne (inS 12 12 (20 * 2 ^ 48 + 12 * 2 ^ 43 + 1 * 2 ^ 42 + 2199023255636)) = .ok (.maxImm ⟨true, 4⟩ 20 12 2199023255636) :=
  ⟨rfl, rfl, rfl, rfl, rfl, rfl, rfl, rfl, rfl, rfl, rfl, rfl⟩

theorem test_decode_scalar_other :
    decodeOne (inS 13 0 (5 * 2 ^ 48 + 6 * 2 ^ 43 + 10 * 2 ^ 37)) = .ok (.bitc ⟨false, 0⟩ 5 6 10) ∧
    decodeOne (inS 14 0 (5 * 2 ^ 48 + 140737488355337)) = .ok (.li ⟨false, 0⟩ 5 140737488355337) ∧
    decodeOne (inS 15 1 (2 * 2 ^ 50 + 11 * 2 ^ 45 + 17 * 2 ^ 40 + 18 * 2 ^ 34)) = .ok (.cmpReg ⟨false, 1⟩ 2 0xB 17 18) ∧
    decodeOne (inS 15 0 (2 * 2 ^ 50 + 2 * 2 ^ 45 + 3 * 2 ^ 40 + 1 * 2 ^ 39 + 100)) = .ok (.cmpImm ⟨false, 0⟩ 2 2 3 0x64) ∧
    decodeOne (inS 16 0 (6 * 2 ^ 50 + 2 * 2 ^ 45 + 9 * 2 ^ 41 + 3 * 2 ^ 37)) = .ok (.plog ⟨false, 0⟩ 6 0b0010 ⟨true, 1⟩ ⟨false, 3⟩) ∧
    decodeOne (inS 17 0 (5 * 2 ^ 48 + 6 * 2 ^ 43 + 7 * 2 ^ 38 + 12 * 2 ^ 34)) = .ok (.sel ⟨false, 0⟩ 5 ⟨true, 4⟩ 6 7) :=
  ⟨rfl, rfl, rfl, rfl, rfl, rfl⟩

theorem test_decode_control :
    decodeOne (inS 18 3 (9 * 2 ^ 48 + 5 * 2 ^ 44 + 32766 * 2 ^ 28)) = .ok (.br ⟨false, 3⟩ 5 9 0x7FFE) ∧
    decodeOne (inS 19 0 (4660 * 2 ^ 28)) = .ok (.jmpLabel ⟨false, 0⟩ 0x1234) ∧
    decodeOne (inS 19 0 (7 * 2 ^ 48 + 1 * 2 ^ 43)) = .ok (.jmpReg ⟨false, 0⟩ 7) ∧
    decodeOne (inS 20 0 (16385 * 2 ^ 28)) = .ok (.callLabel ⟨false, 0⟩ 0x4001) ∧
    decodeOne (inS 20 0 (8 * 2 ^ 48 + 1 * 2 ^ 43)) = .ok (.callReg ⟨false, 0⟩ 8) ∧
    decodeOne (inS 21 0 (31 * 2 ^ 48 + 1 * 2 ^ 43)) = .ok (.ret ⟨false, 0⟩ 31) ∧
    decodeOne (inS 22 0 (4 * 2 ^ 48 + 28672 * 2 ^ 16)) = .ok (.loopReg ⟨false, 0⟩ 4 0x7000) ∧
    decodeOne (inS 22 0 (1 * 2 ^ 47 + 65535 * 2 ^ 31 + 28672 * 2 ^ 16)) = .ok (.loopImm ⟨false, 0⟩ 0xFFFF 0x7000) ∧
    decodeOne (inS 23 0 (6 * 2 ^ 37)) = .ok (.lbrk ⟨false, 0⟩ 6) ∧
    decodeOne (inS 27 0 (0)) = .ok (.yield ⟨false, 0⟩) ∧
    decodeOne (inS 27 0 (1 * 2 ^ 37)) = .ok (.yieldField ⟨false, 0⟩) ∧
    decodeOne (inS 31 0 (43981 * 2 ^ 37)) = .ok (.trap ⟨false, 0⟩ 0xABCD) ∧
    decodeOne (inS 32 0 (0)) = .ok (.tret ⟨false, 0⟩) ∧
    decodeOne (inS 33 0 (0)) = .ok (.uiret ⟨false, 0⟩) ∧
    decodeOne (inS 34 15 (0)) = .ok (.done ⟨true, 7⟩) :=
  ⟨rfl, rfl, rfl, rfl, rfl, rfl, rfl, rfl, rfl, rfl, rfl, rfl, rfl, rfl, rfl⟩

theorem test_decode_special_forms :
    decodeOne (inS 24 0 (3 * 2 ^ 36)) = .ok (.waitImm ⟨false, 0⟩ 3 0) ∧
    decodeOne (inS 24 0 (9 * 2 ^ 48 + 15 * 2 ^ 36 + 1 * 2 ^ 32)) = .ok (.waitReg ⟨false, 0⟩ 15 9) ∧
    decodeOne (inS 24 0 (9 * 2 ^ 48 + 2 * 2 ^ 32)) = .ok (.waitTcyc ⟨false, 0⟩ 9) ∧
    decodeOne (inS 25 0 (7 * 2 ^ 36)) = .ok (.phase ⟨false, 0⟩ 7) ∧
    decodeOne (inS 26 0 (9 * 2 ^ 48 + 1041793)) = .ok (.pass ⟨false, 0⟩ 9 1041793) ∧
    decodeOne (inS 26 0 (9 * 2 ^ 48 + 21 * 2 ^ 36 + 1 * 2 ^ 32 + 1041793)) = .ok (.passCycleReg ⟨false, 0⟩ 9 1041793 21) ∧
    decodeOne (inS 28 0 (9 * 2 ^ 48 + 63 * 2 ^ 36)) = .ok (.view ⟨false, 0⟩ 63 9) ∧
    decodeOne (inS 28 0 (63 * 2 ^ 36 + 1 * 2 ^ 32 + 62)) = .ok (.viewCopy ⟨false, 0⟩ 63 62) ∧
    decodeOne (inS 28 0 (9 * 2 ^ 48 + 63 * 2 ^ 36 + 2 * 2 ^ 32 + 4294967168)) = .ok (.viewBase ⟨false, 0⟩ 63 9 0xFFFFFF80) ∧
    decodeOne (inS 28 0 (63 * 2 ^ 36 + 3 * 2 ^ 32 + 255)) = .ok (.viewGen ⟨false, 0⟩ 63 255) ∧
    decodeOne (inS 29 0 (9 * 2 ^ 48 + 69 * 2 ^ 36)) = .ok (.gets ⟨false, 0⟩ 9 0x045) ∧
    decodeOne (inS 30 0 (9 * 2 ^ 48 + 2049 * 2 ^ 36)) = .ok (.setsReg ⟨false, 0⟩ 0x801 9) ∧
    decodeOne (inS 30 0 (63 * 2 ^ 36 + 1 * 2 ^ 32 + 4294967295)) = .ok (.setsImm ⟨false, 0⟩ 0x03F 0xFFFFFFFF) ∧
    decodeOne (inS 30 0 (39 * 2 ^ 36 + 2 * 2 ^ 32 + 2147483648)) = .ok (.setsOr ⟨false, 0⟩ 0x027 0x80000000) ∧
    decodeOne (inS 30 0 (1 * 2 ^ 36 + 3 * 2 ^ 32 + 5)) = .ok (.setsClr ⟨false, 0⟩ 0x001 5) :=
  ⟨rfl, rfl, rfl, rfl, rfl, rfl, rfl, rfl, rfl, rfl, rfl, rfl, rfl, rfl, rfl⟩

theorem test_decode_address_registers :
    decodeOne (inG 1 9 (15 * 2 ^ 35 + 14 * 2 ^ 31 + 13 * 2 ^ 25)) = .ok (.aaddReg ⟨true, 1⟩ 15 14 13) ∧
    decodeOne (inG 1 0 (15 * 2 ^ 35 + 14 * 2 ^ 31 + 1 * 2 ^ 30 + 536870913)) = .ok (.aaddImm ⟨false, 0⟩ 15 14 536870913) ∧
    decodeOne (inG 2 0 (11 * 2 ^ 35 + 3735928559 * 2 ^ 3)) = .ok (.ali ⟨false, 0⟩ 11 0xDEADBEEF) ∧
    decodeOne (inG 3 0 (11 * 2 ^ 34 + 22 * 2 ^ 29)) = .ok (.amovToA ⟨false, 0⟩ 11 22) ∧
    decodeOne (inG 3 0 (1 * 2 ^ 38 + 11 * 2 ^ 34 + 22 * 2 ^ 29)) = .ok (.amovToS ⟨false, 0⟩ 22 11) ∧
    decodeOne (inG 4 0 (2 * 2 ^ 35 + 65520 * 2 ^ 12)) = .ok (.acfgLin ⟨false, 0⟩ 2 0xFFF0) ∧
    decodeOne (inG 4 0 (2 * 2 ^ 35 + 1 * 2 ^ 33 + 6 * 2 ^ 28 + 16 * 2 ^ 12)) = .ok (.acfgMod ⟨false, 0⟩ 2 6 16) ∧
    decodeOne (inG 4 0 (3 * 2 ^ 35 + 2 * 2 ^ 33 + 7 * 2 ^ 28 + 1 * 2 ^ 12)) = .ok (.acfgBrev ⟨false, 0⟩ 3 7 1) ∧
    decodeOne (inG 5 0 (21 * 2 ^ 34 + 42 * 2 ^ 28 + 5 * 2 ^ 24)) = .ok (.lidx ⟨false, 0⟩ 5 42 21) ∧
    decodeOne (inG 6 0 (7 * 2 ^ 36 + 61 * 2 ^ 30)) = .ok (.pf ⟨false, 0⟩ 7 61) :=
  ⟨rfl, rfl, rfl, rfl, rfl, rfl, rfl, rfl, rfl, rfl⟩

theorem test_decode_vector_arithmetic :
    decodeOne (inV0 1 10 (33 * 2 ^ 47 + 277 * 2 ^ 38 + 1 * 2 ^ 16 + 19 * 2 ^ 29 + 1 * 2 ^ 18 + 1 * 2 ^ 17)) = .ok (.vadd ⟨false, ⟨true, 2⟩⟩ 33 (.tile true 21) (.scalar 19) 1 true) ∧
    decodeOne (inV1 2 10 (33 * 2 ^ 47 + 277 * 2 ^ 38 + 1 * 2 ^ 16 + 19 * 2 ^ 29 + 1 * 2 ^ 18 + 1 * 2 ^ 17)) = .ok (.vsub ⟨true, ⟨true, 2⟩⟩ 33 (.tile true 21) (.scalar 19) 1 true) ∧
    decodeOne (inV0 3 10 (33 * 2 ^ 47 + 277 * 2 ^ 38 + 1 * 2 ^ 16 + 19 * 2 ^ 29 + 1 * 2 ^ 18 + 1 * 2 ^ 17)) = .ok (.vmul ⟨false, ⟨true, 2⟩⟩ 33 (.tile true 21) (.scalar 19) 1 true) ∧
    decodeOne (inV1 4 0 (33 * 2 ^ 47 + 70 * 2 ^ 38 + 325 * 2 ^ 29 + 17 * 2 ^ 20 + 2 * 2 ^ 18)) = .ok (.vfma ⟨true, ⟨false, 0⟩⟩ 33 (.queue false 6) (.src (.queue true 5)) (.src (.tile false 17)) 2 false) ∧
    decodeOne (inV0 4 0 (33 * 2 ^ 47 + 128 * 2 ^ 38 + 20 * 2 ^ 29 + 31 * 2 ^ 20 + 1 * 2 ^ 16 + 1 * 2 ^ 15)) = .ok (.vfma ⟨false, ⟨false, 0⟩⟩ 33 .held (.scalar 20) (.scalar 31) 0 false) ∧
    decodeOne (inV1 5 0 (1 * 2 ^ 47 + 2 * 2 ^ 38 + 3 * 2 ^ 29)) = .ok (.vmin ⟨true, ⟨false, 0⟩⟩ 1 (.tile false 2) (.src (.tile false 3))) ∧
    decodeOne (inV1 6 0 (1 * 2 ^ 47 + 2 * 2 ^ 38 + 3 * 2 ^ 29)) = .ok (.vmax ⟨true, ⟨false, 0⟩⟩ 1 (.tile false 2) (.src (.tile false 3))) ∧
    decodeOne (inV0 7 0 (1 * 2 ^ 47 + 2 * 2 ^ 38 + 3 * 2 ^ 29 + 1 * 2 ^ 16)) = .ok (.vdiv ⟨false, ⟨false, 0⟩⟩ 1 (.tile false 2) (.scalar 3) 0 false) ∧
    decodeOne (inV0 8 0 (1 * 2 ^ 47 + 2 * 2 ^ 38 + 2 * 2 ^ 18 + 1 * 2 ^ 17)) = .ok (.vsqrt ⟨false, ⟨false, 0⟩⟩ 1 (.tile false 2) 2 true) ∧
    decodeOne (inV0 9 0 (1 * 2 ^ 47 + 2 * 2 ^ 38 + 2 * 2 ^ 18 + 1 * 2 ^ 17)) = .ok (.vrsq ⟨false, ⟨false, 0⟩⟩ 1 (.tile false 2) 2 true) ∧
    decodeOne (inV0 10 0 (1 * 2 ^ 47 + 2 * 2 ^ 38 + 2 * 2 ^ 18 + 1 * 2 ^ 17)) = .ok (.vexp2 ⟨false, ⟨false, 0⟩⟩ 1 (.tile false 2) 2 true) ∧
    decodeOne (inV0 11 0 (1 * 2 ^ 47 + 2 * 2 ^ 38 + 2 * 2 ^ 18 + 1 * 2 ^ 17)) = .ok (.vlog2 ⟨false, ⟨false, 0⟩⟩ 1 (.tile false 2) 2 true) ∧
    decodeOne (inV0 20 0 (1 * 2 ^ 47 + 2 * 2 ^ 38 + 2 * 2 ^ 18 + 1 * 2 ^ 17)) = .ok (.vcvt ⟨false, ⟨false, 0⟩⟩ 1 (.tile false 2) 2 true) :=
  ⟨rfl, rfl, rfl, rfl, rfl, rfl, rfl, rfl, rfl, rfl, rfl, rfl, rfl⟩

theorem test_decode_vector_raw :
    decodeOne (inV1 12 0 (1 * 2 ^ 47 + 2 * 2 ^ 38 + 3 * 2 ^ 29 + 1 * 2 ^ 16)) = .ok (.vand ⟨true, ⟨false, 0⟩⟩ 1 (.tile false 2) (.scalar 3)) ∧
    decodeOne (inV1 13 0 (1 * 2 ^ 47 + 2 * 2 ^ 38 + 3 * 2 ^ 29 + 1 * 2 ^ 16)) = .ok (.vor ⟨true, ⟨false, 0⟩⟩ 1 (.tile false 2) (.scalar 3)) ∧
    decodeOne (inV1 14 0 (1 * 2 ^ 47 + 2 * 2 ^ 38 + 3 * 2 ^ 29 + 1 * 2 ^ 16)) = .ok (.vxor ⟨true, ⟨false, 0⟩⟩ 1 (.tile false 2) (.scalar 3)) ∧
    decodeOne (inV0 15 0 (1 * 2 ^ 47 + 2 * 2 ^ 38 + 3 * 2 ^ 29 + 1 * 2 ^ 17)) = .ok (.vshlTile ⟨false, ⟨false, 0⟩⟩ 1 (.tile false 2) (.tile false 3) true) ∧
    decodeOne (inV0 15 0 (1 * 2 ^ 47 + 2 * 2 ^ 38 + 3 * 2 ^ 29 + 1 * 2 ^ 16)) = .ok (.vshlScalar ⟨false, ⟨false, 0⟩⟩ 1 (.tile false 2) 3 false) ∧
    decodeOne (inV0 15 0 (1 * 2 ^ 47 + 2 * 2 ^ 38 + 1 * 2 ^ 14 + 63)) = .ok (.vshlImm ⟨false, ⟨false, 0⟩⟩ 1 (.tile false 2) 63 false) ∧
    decodeOne (inV0 16 0 (1 * 2 ^ 47 + 2 * 2 ^ 38 + 3 * 2 ^ 29 + 1 * 2 ^ 13)) = .ok (.vshrTile ⟨false, ⟨false, 0⟩⟩ 1 (.tile false 2) (.tile false 3) true) ∧
    decodeOne (inV0 16 0 (1 * 2 ^ 47 + 2 * 2 ^ 38 + 3 * 2 ^ 29 + 1 * 2 ^ 16)) = .ok (.vshrScalar ⟨false, ⟨false, 0⟩⟩ 1 (.tile false 2) 3 false) ∧
    decodeOne (inV0 16 0 (1 * 2 ^ 47 + 2 * 2 ^ 38 + 1 * 2 ^ 14 + 1 * 2 ^ 13 + 33)) = .ok (.vshrImm ⟨false, ⟨false, 0⟩⟩ 1 (.tile false 2) 33 true) ∧
    decodeOne (inV1 17 0 (1 * 2 ^ 47 + 2 * 2 ^ 38 + 3 * 2 ^ 29 + 6)) = .ok (.vcmp ⟨true, ⟨false, 0⟩⟩ 1 (.tile false 2) (.src (.tile false 3)) 6) ∧
    decodeOne (inV0 18 0 (1 * 2 ^ 47 + 2 * 2 ^ 38 + 3 * 2 ^ 29 + 4 * 2 ^ 20 + 1 * 2 ^ 15)) = .ok (.vsel ⟨false, ⟨false, 0⟩⟩ 1 (.tile false 2) (.src (.tile false 3)) (.scalar 4)) ∧
    decodeOne (inV0 19 0 (1 * 2 ^ 47 + 2 * 2 ^ 38)) = .ok (.vmov ⟨false, ⟨false, 0⟩⟩ 1 (.tile false 2)) ∧
    decodeOne (inV0 21 0 (1 * 2 ^ 47 + 22 * 2 ^ 38 + 1 * 2 ^ 18)) = .ok (.vsplat ⟨false, ⟨false, 0⟩⟩ 1 22 1 false) :=
  ⟨rfl, rfl, rfl, rfl, rfl, rfl, rfl, rfl, rfl, rfl, rfl, rfl, rfl⟩

theorem test_decode_vector_masks_and_moves :
    decodeOne (inV0 32 0 (1 * 2 ^ 47 + 1024)) = .ok (.vmskPre ⟨false, ⟨false, 0⟩⟩ 1 1024) ∧
    decodeOne (inV0 32 0 (1 * 2 ^ 47 + 1 * 2 ^ 13 + 16 * 2 ^ 7 + 64)) = .ok (.vmskRect ⟨false, ⟨false, 0⟩⟩ 1 16 64) ∧
    decodeOne (inV0 32 0 (1 * 2 ^ 47 + 2 * 2 ^ 13 + 1 * 2 ^ 16 + 25 * 2 ^ 29)) = .ok (.vmskRng ⟨false, ⟨false, 0⟩⟩ 1 25) ∧
    decodeOne (inV1 33 0 (31 * 2 ^ 47 + 2 * 2 ^ 38)) = .ok (.vpop ⟨true, ⟨false, 0⟩⟩ 31 (.tile false 2)) ∧
    decodeOne (inV1 22 0 (31 * 2 ^ 47 + 2 * 2 ^ 38 + 1023)) = .ok (.vextImm ⟨true, ⟨false, 0⟩⟩ 31 (.tile false 2) 1023) ∧
    decodeOne (inV1 22 0 (31 * 2 ^ 47 + 2 * 2 ^ 38 + 30 * 2 ^ 29 + 1 * 2 ^ 16)) = .ok (.vextReg ⟨true, ⟨false, 0⟩⟩ 31 (.tile false 2) 30) ∧
    decodeOne (inV0 23 0 (1 * 2 ^ 47 + 2 * 2 ^ 38 + 15)) = .ok (.vrotr ⟨false, ⟨false, 0⟩⟩ 1 (.tile false 2) (.imm 15)) ∧
    decodeOne (inV0 24 0 (1 * 2 ^ 47 + 2 * 2 ^ 38 + 63)) = .ok (.vrotc ⟨false, ⟨false, 0⟩⟩ 1 (.tile false 2) (.imm 63)) ∧
    decodeOne (inV0 25 0 (1 * 2 ^ 47 + 2 * 2 ^ 38 + 3 * 2 ^ 29 + 1 * 2 ^ 16)) = .ok (.vbcr ⟨false, ⟨false, 0⟩⟩ 1 (.tile false 2) (.scalar 3)) ∧
    decodeOne (inV0 26 0 (1 * 2 ^ 47 + 2 * 2 ^ 38 + 3 * 2 ^ 29 + 1 * 2 ^ 16)) = .ok (.vbcc ⟨false, ⟨false, 0⟩⟩ 1 (.tile false 2) (.scalar 3)) ∧
    decodeOne (inV0 34 0 (1 * 2 ^ 47 + 2 * 2 ^ 38 + 3 * 2 ^ 29)) = .ok (.vshuf ⟨false, ⟨false, 0⟩⟩ 1 (.tile false 2) (.tile false 3)) :=
  ⟨rfl, rfl, rfl, rfl, rfl, rfl, rfl, rfl, rfl, rfl, rfl⟩

theorem test_decode_vector_reductions_shape_quantisation :
    decodeOne (inV1 27 0 (1 * 2 ^ 47 + 2 * 2 ^ 38 + 2 + 1 * 2 ^ 2 + 2 * 2 ^ 18 + 1 * 2 ^ 17)) = .ok (.vredr ⟨true, ⟨false, 0⟩⟩ 1 (.tile false 2) 2 true 2 true) ∧
    decodeOne (inV1 28 0 (1 * 2 ^ 47 + 2 * 2 ^ 38 + 1)) = .ok (.vredc ⟨true, ⟨false, 0⟩⟩ 1 (.tile false 2) 1 false 0 false) ∧
    decodeOne (inV1 31 0 (1 * 2 ^ 47 + 9 * 2 ^ 10 + 15 * 2 ^ 6 + 62)) = .ok (.vshpType ⟨true, ⟨false, 0⟩⟩ 1 9 15 62) ∧
    decodeOne (inV1 31 0 (1 * 2 ^ 47 + 1 * 2 ^ 14 + 15 * 2 ^ 6 + 62)) = .ok (.vshpKeep ⟨true, ⟨false, 0⟩⟩ 1 15 62) ∧
    decodeOne (inV1 31 0 (1 * 2 ^ 47 + 1 * 2 ^ 16 + 29 * 2 ^ 29)) = .ok (.vshpReg ⟨true, ⟨false, 0⟩⟩ 1 29) ∧
    decodeOne (inV0 29 0 (1 * 2 ^ 47 + 2 * 2 ^ 38 + 13 + 3 * 2 ^ 4 + 1 * 2 ^ 6)) = .ok (.vqlt ⟨false, ⟨false, 0⟩⟩ 1 (.tile false 2) 13 3 true) ∧
    decodeOne (inV0 29 0 (1 * 2 ^ 47 + 2 * 2 ^ 38 + 3 * 2 ^ 29 + 13 + 2 * 2 ^ 4 + 1 * 2 ^ 7)) = .ok (.vqltOffsets ⟨false, ⟨false, 0⟩⟩ 1 (.tile false 2) (.tile false 3) 13 2 false) ∧
    decodeOne (inV1 30 0 (1 * 2 ^ 47 + 2 * 2 ^ 38 + 13)) = .ok (.vboff ⟨true, ⟨false, 0⟩⟩ 1 (.tile false 2) 13) :=
  ⟨rfl, rfl, rfl, rfl, rfl, rfl, rfl, rfl⟩

theorem test_decode_array :
    decodeOne (inA 1 0 (0)) = .ok (.amodeNorm ⟨false, 0⟩) ∧
    decodeOne (inA 1 0 (1 * 2 ^ 52)) = .ok (.amodeSplit ⟨false, 0⟩) ∧
    decodeOne (inA 2 0 (1525 * 2 ^ 31 + 511 * 2 ^ 22 + 1 * 2 ^ 21 + 13 * 2 ^ 17 + 3 * 2 ^ 13)) = .ok (.wload ⟨false, 0⟩ 511 true 13 3 (.start 1525)) ∧
    decodeOne (inA 3 0 (1 * 2 ^ 52 + 48 * 2 ^ 25 + 3 * 2 ^ 23 + 1 * 2 ^ 22 + 3 * 2 ^ 18 + 133 * 2 ^ 10)) = .ok (.wloadg ⟨false, 0⟩ 48 3 true 3 0x85 .now) ∧
    decodeOne (inA 3 0 (1 * 2 ^ 51 + 19 * 2 ^ 31 + 33 * 2 ^ 25 + 2 * 2 ^ 23 + 1 * 2 ^ 22 + 1 * 2 ^ 9)) = .ok (.wloadgImg ⟨false, 0⟩ 33 2 true (.reg 19)) ∧
    decodeOne (inA 4 0 (1 * 2 ^ 52 + 26 * 2 ^ 26 + 50 * 2 ^ 20 + 1 * 2 ^ 6 + 1 * 2 ^ 5)) = .ok (.stream ⟨false, 0⟩ 26 (some 50) none none .now) ∧
    decodeOne (inA 5 0 (1 * 2 ^ 52 + 26 * 2 ^ 26 + 1 * 2 ^ 7 + 51 * 2 ^ 14 + 52 * 2 ^ 8)) = .ok (.streamt ⟨false, 0⟩ 26 none (some 51) (some 52) .now) ∧
    decodeOne (inA 6 0 (1048575 * 2 ^ 31 + 30 * 2 ^ 25 + 40 * 2 ^ 19 + 15 * 2 ^ 15 + 47 * 2 ^ 9 + 1 * 2 ^ 7 + 2 * 2 ^ 5 + 1 * 2 ^ 4 + 1 * 2 ^ 3)) = .ok (.drain ⟨false, 0⟩ 30 40 15 47 1 2 true true (.start 0xFFFFF)) ∧
    decodeOne (inA 7 0 (40 * 2 ^ 47 + 23 * 2 ^ 41)) = .ok (.aclr ⟨false, 0⟩ 40 23) ∧
    decodeOne (inA 8 0 (44 * 2 ^ 45 + 21 * 2 ^ 40 + 13 * 2 ^ 36)) = .ok (.wstore ⟨false, 0⟩ 44 21 13) ∧
    decodeOne (inA 8 0 (1 * 2 ^ 51 + 44 * 2 ^ 45 + 13 * 2 ^ 36 + 3 * 2 ^ 34 + 1 * 2 ^ 33)) = .ok (.wstorePlane ⟨false, 0⟩ 44 3 true 13) ∧
    decodeOne (inA 9 0 (13 * 2 ^ 47 + 200 * 2 ^ 39 + 55 * 2 ^ 31 + 44 * 2 ^ 25)) = .ok (.cbld ⟨false, 0⟩ 13 200 55 44) ∧
    decodeOne (inA 9 0 (1 * 2 ^ 51 + 13 * 2 ^ 47 + 44 * 2 ^ 25)) = .ok (.cbldRestore ⟨false, 0⟩ 13 44) ∧
    decodeOne (inA 10 0 (13 * 2 ^ 49)) = .ok (.cbflip ⟨false, 0⟩ 13) ∧
    decodeOne (inA 11 0 (13 * 2 ^ 49 + 44 * 2 ^ 43 + 11 * 2 ^ 39)) = .ok (.cbst ⟨false, 0⟩ 13 44 11) :=
  ⟨rfl, rfl, rfl, rfl, rfl, rfl, rfl, rfl, rfl, rfl, rfl, rfl, rfl, rfl, rfl⟩

theorem test_decode_memory :
    decodeOne (inM 1 0 (21 * 2 ^ 48 + 9 * 2 ^ 43 + 5 * 2 ^ 39 + 1 * 2 ^ 37 + 1 * 2 ^ 36 + 2 * 2 ^ 34 + 1 * 2 ^ 33 + 14 * 2 ^ 29 + 1 * 2 ^ 28 + 44 * 2 ^ 22)) = .ok (.lds ⟨false, 0⟩ 21 ⟨9, 5, false, true⟩ true 2 true 14 (some 44)) ∧
    decodeOne (inM 2 0 (21 * 2 ^ 48 + 9 * 2 ^ 43 + 1 * 2 ^ 38 + 3 * 2 ^ 34)) = .ok (.sts ⟨false, 0⟩ 21 ⟨9, 0, true, false⟩ false 3 0 none) ∧
    decodeOne (inM 3 0 (44 * 2 ^ 47 + 9 * 2 ^ 42 + 5 * 2 ^ 38 + 1 * 2 ^ 36 + 1 * 2 ^ 35 + 22 * 2 ^ 30 + 14 * 2 ^ 26 + 1 * 2 ^ 25 + 43 * 2 ^ 19 + 1 * 2 ^ 18)) = .ok (.tld ⟨false, 0⟩ 44 ⟨9, 5, false, true⟩ true 22 14 (some 43) true) ∧
    decodeOne (inM 4 0 (44 * 2 ^ 47 + 9 * 2 ^ 42 + 5 * 2 ^ 38 + 1 * 2 ^ 36 + 1 * 2 ^ 35 + 22 * 2 ^ 30 + 14 * 2 ^ 26)) = .ok (.tst ⟨false, 0⟩ 44 ⟨9, 5, false, true⟩ true 22 14 none) ∧
    decodeOne (inM 5 0 (21 * 2 ^ 48 + 9 * 2 ^ 43 + 5 * 2 ^ 39 + 1 * 2 ^ 37 + 1 * 2 ^ 36 + 9 * 2 ^ 32 + 17 * 2 ^ 27 + 18 * 2 ^ 22 + 13 * 2 ^ 18 + 1 * 2 ^ 17 + 44 * 2 ^ 11)) = .ok (.atom ⟨false, 0⟩ 21 ⟨9, 5, false, true⟩ true 9 17 18 13 (some 44)) ∧
    decodeOne (inM 6 0 (44 * 2 ^ 47 + 9 * 2 ^ 42 + 5 * 2 ^ 38 + 1 * 2 ^ 36 + 22 * 2 ^ 31 + 5 * 2 ^ 28 + 13 * 2 ^ 24 + 1 * 2 ^ 23 + 43 * 2 ^ 17)) = .ok (.atomt ⟨false, 0⟩ 44 ⟨9, 5, false, true⟩ 22 5 13 (some 43)) ∧
    decodeOne (inM 7 0 (3 * 2 ^ 51 + 1 * 2 ^ 50 + 9 * 2 ^ 46 + 10 * 2 ^ 42 + 5 * 2 ^ 39 + 17 * 2 ^ 34 + 8191 * 2 ^ 21)) = .ok (.stash ⟨false, 0⟩ 3 9 10 5 17 8191) ∧
    decodeOne (inM 7 0 (3 * 2 ^ 51)) = .ok (.stashOff ⟨false, 0⟩ 3) ∧
    decodeOne (inM 8 0 (0 * 2 ^ 49 + 9 * 2 ^ 44 + 5 * 2 ^ 40 + 1 * 2 ^ 38 + 255 * 2 ^ 30 + 1 * 2 ^ 29 + 7 * 2 ^ 25)) = .ok (.hintReq ⟨false, 0⟩ ⟨9, 5, false, true⟩ 255 (some 7)) ∧
    decodeOne (inM 8 0 (1 * 2 ^ 49 + 9 * 2 ^ 44 + 5 * 2 ^ 40 + 1 * 2 ^ 38 + 255 * 2 ^ 30 + 1 * 2 ^ 29 + 7 * 2 ^ 25)) = .ok (.hintFill ⟨false, 0⟩ ⟨9, 5, false, true⟩ 255 (some 7)) ∧
    decodeOne (inM 8 0 (2 * 2 ^ 49 + 9 * 2 ^ 44 + 5 * 2 ^ 40 + 1 * 2 ^ 38 + 255 * 2 ^ 30 + 1 * 2 ^ 29 + 7 * 2 ^ 25)) = .ok (.hintDrop ⟨false, 0⟩ ⟨9, 5, false, true⟩ 255 (some 7)) ∧
    decodeOne (inM 8 0 (3 * 2 ^ 49 + 9 * 2 ^ 44 + 5 * 2 ^ 40 + 1 * 2 ^ 38 + 255 * 2 ^ 30 + 1 * 2 ^ 29 + 7 * 2 ^ 25)) = .ok (.hintL2 ⟨false, 0⟩ ⟨9, 5, false, true⟩ 255 (some 7)) ∧
    decodeOne (inM 9 0 (21 * 2 ^ 48 + 1 * 2 ^ 46 + 3 * 2 ^ 44 + 13 * 2 ^ 40 + 1 * 2 ^ 39 + 17 * 2 ^ 34)) = .ok (.cpy ⟨false, 0⟩ 21 1 3 13 true 17) ∧
    decodeOne (inM 10 0 (44 * 2 ^ 46 + 21 * 2 ^ 41 + 22 * 2 ^ 36 + 13 * 2 ^ 32 + 1 * 2 ^ 31 + 17 * 2 ^ 26)) = .ok (.cpyzSt ⟨false, 0⟩ 44 21 22 13 true 17) ∧
    decodeOne (inM 10 0 (1 * 2 ^ 52 + 44 * 2 ^ 46 + 21 * 2 ^ 41 + 22 * 2 ^ 36 + 13 * 2 ^ 32 + 17 * 2 ^ 26)) = .ok (.cpyzLd ⟨false, 0⟩ 44 21 22 13 false 17) :=
  ⟨rfl, rfl, rfl, rfl, rfl, rfl, rfl, rfl, rfl, rfl, rfl, rfl, rfl, rfl, rfl⟩

theorem test_decode_mesh_links_and_system :
    decodeOne (inM 11 0 (77 * 2 ^ 31 + 3 * 2 ^ 29 + 44 * 2 ^ 22)) = .ok (.msend ⟨false, 0⟩ 3 (.tile 44) (.start 77)) ∧
    decodeOne (inM 12 0 (77 * 2 ^ 31 + 2 * 2 ^ 29 + 1 * 2 ^ 28 + 21 * 2 ^ 23)) = .ok (.mrecv ⟨false, 0⟩ 2 (.lines 21) (.start 77)) ∧
    decodeOne (inM 13 0 (1 * 2 ^ 52 + 21 * 2 ^ 26 + 17 * 2 ^ 21 + 13 * 2 ^ 17)) = .ok (.lsend ⟨false, 0⟩ 21 17 13 .now) ∧
    decodeOne (inM 14 0 (1 * 2 ^ 52 + 21 * 2 ^ 26 + 17 * 2 ^ 21 + 13 * 2 ^ 17)) = .ok (.lrecv ⟨false, 0⟩ 21 17 13 .now) ∧
    decodeOne (inM 15 0 (1 * 2 ^ 52 + 21 * 2 ^ 26 + 17 * 2 ^ 21 + 13 * 2 ^ 17)) = .ok (.lred ⟨false, 0⟩ 21 17 13 .now) ∧
    decodeOne (inM 16 0 (1 * 2 ^ 52 + 21 * 2 ^ 26 + 17 * 2 ^ 21 + 13 * 2 ^ 17)) = .ok (.lbcst ⟨false, 0⟩ 21 17 13 .now) ∧
    decodeOne (inM 17 0 (21 * 2 ^ 48 + 26 * 2 ^ 43 + 13 * 2 ^ 39)) = .ok (.bcall ⟨false, 0⟩ 21 26 13) ∧
    decodeOne (inM 18 0 (17 * 2 ^ 48 + 31 * 2 ^ 43 + 13 * 2 ^ 39)) = .ok (.fence ⟨false, 0⟩ 0x11 0x1F 13) ∧
    decodeOne (inM 19 0 (0)) = .ok (.vjoin ⟨false, 0⟩) ∧
    decodeOne (inM 20 0 (21 * 2 ^ 46 + 22 * 2 ^ 41 + 13 * 2 ^ 37)) = .ok (.tlbinv ⟨false, 0⟩ 21 22 13) ∧
    decodeOne (inM 20 0 (1 * 2 ^ 51 + 21 * 2 ^ 46 + 13 * 2 ^ 37)) = .ok (.tlbinvDie ⟨false, 0⟩ 21 13) ∧
    decodeOne (inM 21 0 (3 * 2 ^ 49 + 21 * 2 ^ 44 + 13 * 2 ^ 35)) = .ok (.csaveCtx ⟨false, 0⟩ 3 21 13) ∧
    decodeOne (inM 21 0 (1 * 2 ^ 51 + 21 * 2 ^ 44 + 13 * 2 ^ 35)) = .ok (.csaveTile ⟨false, 0⟩ 21 13) ∧
    decodeOne (inM 21 0 (2 * 2 ^ 51 + 21 * 2 ^ 44 + 22 * 2 ^ 39 + 13 * 2 ^ 35)) = .ok (.csaveBlk ⟨false, 0⟩ 21 22 13) ∧
    decodeOne (inM 21 0 (3 * 2 ^ 51 + 21 * 2 ^ 44 + 13 * 2 ^ 35)) = .ok (.csaveCode ⟨false, 0⟩ 21 13) ∧
    decodeOne (inM 22 0 (3 * 2 ^ 49 + 21 * 2 ^ 44 + 13 * 2 ^ 35)) = .ok (.cloadCtx ⟨false, 0⟩ 3 21 13) ∧
    decodeOne (inM 22 0 (1 * 2 ^ 51 + 21 * 2 ^ 44 + 13 * 2 ^ 35)) = .ok (.cloadTile ⟨false, 0⟩ 21 13) ∧
    decodeOne (inM 22 0 (2 * 2 ^ 51 + 21 * 2 ^ 44 + 22 * 2 ^ 39 + 13 * 2 ^ 35)) = .ok (.cloadBlk ⟨false, 0⟩ 21 22 13) ∧
    decodeOne (inM 22 0 (3 * 2 ^ 51 + 21 * 2 ^ 44 + 13 * 2 ^ 35)) = .ok (.cloadCode ⟨false, 0⟩ 21 13) :=
  ⟨rfl, rfl, rfl, rfl, rfl, rfl, rfl, rfl, rfl, rfl, rfl, rfl, rfl, rfl, rfl, rfl, rfl, rfl, rfl⟩

/-! ### Witnesses: the hypotheses of each statement are met -/

theorem witness_MemoryReadsBackAndStaysCanonical :
    (255 : Nat) < 256 ^ 1 ∧ Mem.wf [(0, 1), (7, 255)] = true ∧ Mem.wf [] = true ∧
    (∀ a, Mem.byte [(3, 1)] a = Mem.byte [(3, 1)] a) := ⟨by decide, by decide, by decide, fun _ => rfl⟩

theorem witness_HardWiredRegisters : (31 : Nat) ≠ 0 ∧ (1 : Nat) ≠ 0 := by decide

/-- A context with one result in flight. -/
def flying (d : Dest) : State := pc (fun c => { c with inflight := [⟨5, 1, 5, slS, 0x7F, d⟩] })
def hasFlying (s : State) : Prop := (s.ctx 0 0).inflight.find? (fun y => y.id == 5) = some ((s.ctx 0 0).inflight.headD ⟨0, 0, 0, 0, 0, .flip 0⟩)

theorem witness_AResultWaitsAndLands :
    (4 * 0 + 1 ≠ 4 * p0.cur.tile + p0.cur.hw) ∧ hasFlying (flying (.sreg .user 31 (-1))) ∧ hasFlying (flying (.preg .shadow 7 true)) ∧
    hasFlying (flying (.areg .user 15 1)) ∧ hasFlying (flying (.acfg .user 15 ACfg.linear)) ∧ hasFlying (flying (.vreg .system 63 128)) ∧
    ((0, 1) ≠ (0, 0) ∧ 1 < 4) :=
  ⟨by decide, rfl, rfl, rfl, rfl, rfl, by decide⟩

theorem witness_AStoreLandsInItsBytesAlone :
    hasFlying (flying (.scratch (numbered 0x5FFFF [1]))) ∧ hasFlying (flying (.tile 0 false false [⟨0x1FFFE, 255, 1⟩])) ∧
    (∀ w ∈ [(⟨0x1FFFE, 255, 1⟩ : MaskedByte)], w.addr ≠ 0x1FFFF) := ⟨rfl, rfl, by decide⟩

theorem witness_ScalarArithmeticOnRegisters : p0.cc.guard yes = true ∧ p0.cc.guard ⟨true, 7⟩ = true := by decide +kernel

theorem witness_ScalarArithmeticOnImmediates :
    p0.cc.guard yes = true ∧ (63#42).toNat ≤ 63 ∧ 63 < (64#42).toNat := by decide +kernel

theorem witness_BitCountsAndExtensions : p0.cc.guard yes = true ∧ 0x0B ≤ (0x0B#6).toNat ∧ 0x0B ≤ (0x3F#6).toNat := by decide +kernel

theorem witness_ConstantsComparesAndSelection :
    p0.cc.guard yes = true ∧ (0xB#4).toNat ≤ 0xB ∧ 0xC ≤ (0xC#4).toNat ∧
    (∃ b : BitVec 5, Instr.cmpReg yes 7 11 31 31 = .cmpReg yes 7 11 31 b ∧ p0.cc.sreg 31 = p0.cc.sreg b.toNat) ∧
    (∃ imm : BitVec 39, Instr.cmpImm yes 7 11 31 (2 ^ 38) = .cmpImm yes 7 11 31 imm ∧ BitVec.signExtend 64 (2 ^ 38 : BitVec 39) = imm.signExtend 64) :=
  ⟨by decide +kernel, by decide, by decide, ⟨31, rfl, rfl⟩, ⟨2 ^ 38, rfl, rfl⟩⟩

/-- At the END of its top loop entry. -/
def atEnd : State := pc (fun c => { c with loops := [⟨0, 0, 2, 0⟩] })
/-- In the first delay bundle of a taken branch. -/
def delayed : State := pk p0 (fun k => { k with dly := 2 })

theorem witness_BranchesAndCalls :
    p0.cc.guard yes = true ∧ (p0.inDelay = false ∧ p0.bodyEnd = false) ∧ (5#4).toNat ≤ 5 ∧
    (p0.cc.sreg 31).toInt = 0 ∧ (((ps 31 (-1)).cc.sreg 31).toInt < 0) ∧ ((ps 31 1).cc.sreg 31).toInt > 0 ∧
    delayed.inDelay = true ∧ atEnd.bodyEnd = true ∧ delayed.cc.guard yes = true ∧ atEnd.cc.guard yes = true := by decide +kernel

theorem witness_LoopsPush :
    ((0#15).toNat % p0.codeSize p0.cc = p0.cur.pc) ∧ ((0x7FFF#15).toNat % p0.codeSize p0.cc ≠ p0.cur.pc) ∧ p0.cc.guard yes = true ∧
    (pc (fun c => { c with loops := List.replicate 6 ⟨1, 2, 3, 0⟩ })).cc.loops.length = 6 ∧ delayed.inDelay = true ∧ atEnd.bodyEnd = true ∧
    (pc (fun c => { c with uistat := 0x100 })).cc.active = true ∧
    ¬(6 ≤ p0.cc.loops.length ∨ p0.inDelay = true ∨ p0.bodyEnd = true ∨ p0.cc.active = true) ∧
    (Instr.loopImm yes 0 9 = .loopImm yes 0 9 ∧ 0 = (0#16).toNat) ∧ (0xFFFF#16).toNat ≠ 0 ∧
    (Instr.loopReg yes 31 9 = .loopReg yes 31 9 ∧ 2 ^ 32 - 1 = ((ps 31 (2 ^ 32 - 1)).cc.sreg 31).toNat % 2 ^ 32) := by decide +kernel

theorem witness_LoopBreakPops :
    (0#16).toNat = 0 ∧ 6 < (7#16).toNat ∧ (1 ≤ (6#16).toNat ∧ (6#16).toNat ≤ 6) ∧ p0.cc.guard yes = true ∧
    (p0.cc.loops.length < 1 ∧ delayed.inDelay = true ∧ (pc (fun c => { c with uistat := 0x100 })).cc.active = true) ∧
    (let s := pc (fun c => { c with loops := List.replicate 6 ⟨1, 2, 3, 0⟩ });
      ¬(s.cc.loops.length < 6 ∨ s.inDelay = true ∨ s.cc.active = true) ∧ s.cur.jump = none ∧ s.cur.dly = 0 ∧ s.cur.taken = none) := by
  decide +kernel

theorem witness_SequencerAfterABundle :
    Cur.idle.jump = none ∧ Cur.idle.dly = 0 ∧ Cur.idle.taken = none ∧ Cur.idle.popped = false ∧
    Ctx.idle.uiret = false ∧ Ctx.idle.active = false ∧ Ctx.idle.loops = [] ∧ atEnd.cc.loops = [] ++ [⟨0, 0, 2, 0⟩] ∧
    (LoopE.mk 0 1 2 0).fin ≠ Cur.idle.pc ∧ (LoopE.mk 0 0 2 0).index + 1 < (LoopE.mk 0 0 2 0).count ∧
    (LoopE.mk 0 0 2 1).count ≤ (LoopE.mk 0 0 2 1).index + 1 ∧ (LoopE.mk 0 0 2 0).fin = Cur.idle.pc ∧
    ({ Ctx.idle with uistat := 0x100 }).active = true := by decide +kernel

/-- `wait %e3, 0` with %e3 at 1: the bundle that the manual writes out under R387. -/
def waiting (f : Ctx → Ctx) (w : Nat) : State := (probe w).modCC f

theorem witness_WaitsIssueWhenMet :
    (p0.cc.guard no = false ∧ (p0.cc.ereg 15).toInt ≤ (0#32).toInt ∧ (p0.cc.ereg 15).toInt ≤ ((p0.cc.sreg 31).setWidth 32).toInt ∧
      (p0.cc.sreg 31).toNat ≤ p0.ctcyc) ∧
    (let s := waiting (fun c => { c with e := [(3, 1)] }) (inS 0x18 0 (3 * 2 ^ 36));
      s.wholeService 0 (s.ctx 0 0) = false ∧ (s.ctx 0 0).back = false ∧ s.fetch 0 (s.ctx 0 0) = .bundle (inS 0x18 0 (3 * 2 ^ 36)) ∧
      (0#32).toInt < ((s.ctx 0 0).ereg 3).toInt ∧ (s.ctx 0 0).guard yes = true) ∧
    (let s := waiting (fun c => { c with e := [(15, 1)] }) (inS 0x18 0 (9 * 2 ^ 48 + 15 * 2 ^ 36 + 2 ^ 32));
      s.fetch 0 (s.ctx 0 0) = .bundle (inS 0x18 0 (9 * 2 ^ 48 + 15 * 2 ^ 36 + 2 ^ 32)) ∧
      (((s.ctx 0 0).sreg 9).setWidth 32).toInt < ((s.ctx 0 0).ereg 15).toInt) ∧
    (let s := waiting (fun c => c.putS .user 9 1) (inS 0x18 0 (9 * 2 ^ 48 + 2 * 2 ^ 32));
      s.fetch 0 (s.ctx 0 0) = .bundle (inS 0x18 0 (9 * 2 ^ 48 + 2 * 2 ^ 32)) ∧ s.tcycOf (s.ctx 0 0).fieldNum < ((s.ctx 0 0).sreg 9).toNat) := by
  decide +kernel

theorem witness_WaitsIssueWhenMet_decodes :
    decodeBundle (inS 0x18 0 (3 * 2 ^ 36)) = .ok [(.s, .ok (.waitImm yes 3 0))] ∧
    decodeBundle (inS 0x18 0 (9 * 2 ^ 48 + 15 * 2 ^ 36 + 2 ^ 32)) = .ok [(.s, .ok (.waitReg yes 15 9))] ∧
    decodeBundle (inS 0x18 0 (9 * 2 ^ 48 + 2 * 2 ^ 32)) = .ok [(.s, .ok (.waitTcyc yes 9))] := ⟨rfl, rfl, rfl⟩

/-- The probe's field in a group whose other member, field 1, is PARKED. -/
def grouped : State :=
  { p0 with groups := [(0, 1)], fields := p0.fields.insert 1 { Field.blank with state := .parked, member := 1, origin := 0 } }

theorem witness_TaskControl :
    p0.cc.guard yes = true ∧ (p0.curDomain 5).isSome = true ∧ p0.curDomain 7 = none ∧ p0.inDelay = false ∧ p0.bodyEnd = false ∧
    p0.partnerParked = none ∧ grouped.partnerParked = some 1 ∧
    (let s := pc (fun c => { c with uistat := 0x100 });
      s.cc.guard yes = true ∧ s.cc.active = true ∧ s.cc.sys = false) ∧
    p0.cc.active = false ∧ (pc (fun c => { c with sys := true })).cc.sys = true ∧ delayed.inDelay = true ∧ atEnd.bodyEnd = true := by
  decide +kernel

/-- The probe with the whole budget. -/
def budgeted : State := { p0 with col := { p0.col with budget := 2400 } }

theorem witness_PowerRequests :
    p0.cc.guard yes = true ∧ passReqOk (4 * 2400 + 2 ^ 14 * 63) = true ∧ passReqOk (4 * 1 + 2) = true ∧
    (∀ w, budgeted.col.standingTotal + budgeted.col.granted w + 2400 ≤ budgeted.col.force) ∧
    (budgeted.col.grants.filter (fun x => x.field == budgeted.cf && x.cls == 0 && decide (windowOf budgeted.global ≤ x.last))).length < 4 ∧
    ¬(p0.col.standingTotal + p0.col.granted 0 + 1 ≤ p0.col.force) ∧
    (Instr.passCycleReg yes 9 6 31 = .passCycleReg yes 9 6 31 ∧
      startCycle p0.ctcyc ((p0.cc.sreg 31).toNat % 2 ^ 20) = startCycle p0.ctcyc 0) :=
  ⟨by decide +kernel, by decide +kernel, by decide +kernel, fun _ => (by decide +kernel : 0 + 0 + 2400 ≤ 2400), by decide +kernel, by decide +kernel, rfl, rfl⟩

theorem witness_ViewRegisters : p0.cc.guard yes = true := by decide +kernel

theorem witness_SpecialRegisterAccess :
    listedSelector 0x00E = false ∧ (listedSelector 0x800 = true ∧ 0x800 ≤ (0x800#12).toNat ∧ p0.cc.sys = false) ∧
    (listedSelector 0x801 = true ∧ (pc (fun c => { c with sys := true })).cc.sys = true ∧
      (pc (fun c => { c with sys := true })).cc.guard yes = true) ∧
    (listedSelector 0x045 = true ∧ (0x045#12).toNat < 0x800 ∧ readOnlySel 0x045 = true ∧ p0.cc.guard yes = true) ∧
    (listedSelector 0x000 = true ∧ listedSelector 0x03F = true ∧ readOnlySel 0x03F = false ∧ readOnlySel 0x020 = false) ∧
    ((pc (fun c => { c with loops := List.replicate 6 ⟨1, 2, 3, 0⟩ })).cc.loops[5]?.isSome = true ∧ (0x045#12).toNat = 0x040 + 5) ∧
    p0.cc.loops[5]? = none ∧ (listedSelector 0x015 = true ∧ (0x015#12).toNat = 0x010 + 5) ∧
    (listedSelector 0x01F = true ∧ (0x01F#12).toNat = 0x019 + 2 * 3 ∧ (0x018#12).toNat = 0x018 + 2 * 0) := by
  decide +kernel

theorem witness_SetsLandsByItsAccess : Ctx.idle.aflags.toNat < 0x80 ∧ ({ Ctx.idle with ctxpri := 3 }).ctxpri.toNat < 4 := by decide

theorem witness_AddressRegisters :
    p0.cc.guard yes = true ∧ (p0.cc.sreg 31).toNat / 2 ^ 32 = 0 ∧ ((ps 31 (2 ^ 32)).cc.sreg 31).toNat / 2 ^ 32 ≠ 0 ∧
    (p0.cc.sreg 31).toNat % 32 = 0 ∧ (let x := ((ps 31 0x7E).cc.sreg 31).toNat; 32 < x % 32 + x / 32 % 4) ∧
    (let x := ((ps 31 0x5D).cc.sreg 31).toNat; ¬(x % 32 = 0 ∨ 32 < x % 32 + x / 32 % 4)) ∧
    chkLidx yes 0 (pc (fun c => c.putV .user 0 (4 * 2 ^ 18))) = none ∧ chkPf 0 p0 = none ∧
    ((⟨1, 0x8000, 2 ^ 31, 2 ^ 31, 0, 0⟩ : ACfg).len ≠ 0 ∧
      (⟨1, 0x8000, 2 ^ 31, 2 ^ 31, 0, 0⟩ : ACfg).base.toNat + (⟨1, 0x8000, 2 ^ 31, 2 ^ 31, 0, 0⟩ : ACfg).len.toNat ≤ 2 ^ 32) ∧
    ((⟨2, 1, 0, 0, 29, 3⟩ : ACfg).w + (⟨2, 1, 0, 0, 29, 3⟩ : ACfg).zs ≤ 32 ∧ (31 < 32)) ∧
    -- fields 6 (011 in reverse) and 1 (100 in reverse), one step of INC 1 apart
    (let c : ACfg := ⟨2, 1, 0, 0, 3, 2⟩; (3 < 2 ^ c.w ∧ 4 < 2 ^ c.w) ∧
      (∀ k, k < 3 → (3 : Nat).testBit k = (0x18#32).getLsbD (2 + (3 - 1 - k))) ∧
      ∀ k, k < 3 → (4 : Nat).testBit k = (postInc c 0x18).getLsbD (2 + (3 - 1 - k))) := by decide +kernel

theorem witness_FalseGuardLeavesItsChecks :
    p0.cc.guard no = false ∧ p0.cc.guard ⟨false, 1⟩ = false ∧ 4 * 0 + 1 ≠ 4 * p0.cur.tile + p0.cur.hw ∧
    (p0.setTile 0 { p0.ct with lastOp := (p0.markOp divClass).ct.lastOp }).ct.lastOp = (p0.markOp divClass).ct.lastOp ∧
    (p0.setTile 0 { p0.ct with lastOp := (p0.markOp divClass).ct.lastOp }).cmember = p0.cmember := by decide +kernel

/-- A header in V0, and one in V1, without a guard. -/
def v0 : VHdr := ⟨false, yes⟩
def v1 : VHdr := ⟨true, yes⟩
/-- The probe with view registers 0 to 7 naming whole tiles of one type, and view 8 and 9 of another. -/
def tileViews (ty ty' : Nat) : Table W64 :=
  ((List.range 8).map (fun n => (n, BitVec.ofNat 64 (ty * 2 ^ 18 + 15 * 2 ^ 22 + 63 * 2 ^ 27)))) ++
    [(8, .ofNat 64 (ty' * 2 ^ 18)), (9, .ofNat 64 (ty' * 2 ^ 18))]
def tiles (ty ty' : Nat) : State := pc (fun c => { c with user := { c.user with v := tileViews ty ty' } })
/-- Bank 0 holding in each term a valid zero entry and a valid non-zero one. -/
def termPlane : Table (BitVec 128) := (List.range 4).flatMap (fun k => [(16 * k, 0xC000), (16 * k + 1, 0x8000)])
def booked (s : State) : State := s.modCT (fun t => { t with banks := [(0, { Bank.zero with plane0 := termPlane })] })

theorem witness_ElementsWriteAndRead :
    (let v : W64 := .ofNat 64 (0x1FF80 + 7 * 2 ^ 18);
      vType v < 10 ∧ vType v ≠ 8 ∧ (0x10000 ≤ vBase v ∧ vBase v + footprint (vType v) ≤ 0x20000)) ∧
    (let v : W64 := .ofNat 64 0xF000; vType v < 10 ∧ vType v ≠ 8 ∧ vBase v + footprint (vType v) ≤ 0x10000) ∧
    (15 < 16 ∧ 63 < 64 ∧ ((0, 0) : Nat × Nat) ≠ (15, 63)) := by decide +kernel

theorem witness_StoredResults :
    (0 : Nat) < 1 ∧ (fp32 ∈ [fp32, bf16, fp16]) ∧ (0x7F7FFFFF < 2 ^ fp32.width ∧ (fp32.value 0x7F7FFFFF).isNan = false) ∧
    (fp32.value 0x7F800001).isNan = true ∧ (1 ≠ 0 ∧ (2 : Int) ^ (fp32.ew - 1) ≤ 128 + (Nat.log2 1 : Nat)) := by
  refine ⟨by decide, .head _, by decide +kernel, by decide +kernel, by decide +kernel⟩

/-- R216, R358: 4095 × 2^4 is midway between FP16's largest finite value and 2^16, 65,519 is below; 3 × 2^−26 is a tie of subnormals. -/
theorem witness_StoredResults_rounding :
    (fp16 ∈ [fp32, bf16, fp16] ∧ (4095 : Nat) ≠ 0 ∧ (4 : Int) < max (4 + (Nat.log2 4095 : Nat) : Int) fp16.emin - (fp16.p - 1 : Nat)) ∧
    fp16.round false (.num false 4095 4 false) = (0x7C00, flOF ||| flNX) ∧ fp16.round true (.num false 65519 0 false) = (0x7BFF, flNX) ∧
    fp16.round false (.num true 3 (-25) false) = (0x8002, flNX ||| flUF) ∧
    fp16.round false (.num false (2 ^ 12 - 1) (-26) false) = (0x400, flNX) := by
  refine ⟨⟨by decide, by decide, by decide +kernel⟩, by decide +kernel, by decide +kernel, by decide +kernel, by decide +kernel⟩

theorem witness_VectorArithmetic :
    (let s := tiles 0 0;
      s.cc.guard v0.g = true ∧
      s.chkValue v0 (.vadd v0 1 (.tile false 8) (.src (.tile false 9)) 2 true) 1 [.src (.tile false 8), .src (.tile false 9)]
        (fun x y => arithTypes x 2 y) none = none ∧
      s.chkValue v0 (.vsub v0 1 (.tile false 8) (.scalar 3) 1 false) 1 [.src (.tile false 8), .scalar 3]
        (fun x y => arithTypes x 1 y) none = none ∧
      s.chkValue v1 (.vmin v1 1 (.tile false 8) (.scalar 3)) 1 [.src (.tile false 8), .scalar 3]
        (fun x y => arithTypes x 0 y) none = none ∧
      s.chkValue v1 (.vmax v1 1 (.tile false 8) (.scalar 3)) 1 [.src (.tile false 8), .scalar 3]
        (fun x y => arithTypes x 0 y) none = none ∧
      chkVmul v1 1 (.tile false 8) (.scalar 3) 0 true s = none ∧
      chkVfma v0 1 (.tile false 8) (.scalar 3) (.src (.tile false 8)) 0 true s = none ∧
      chkVdiv v0 1 (.tile false 8) (.src (.tile false 9)) 0 true s = none) ∧
    chkVmul v1 1 (.tile false 8) (.scalar 3) 0 true (tiles 2 4) = none := by decide +kernel

theorem witness_VectorFunctions :
    (let s := tiles 0 4;
      s.cc.guard v0.g = true ∧ chkVsqrt v0 1 (.tile false 2) 2 true s = none ∧
      s.chkValue v0 (.vrsq v0 1 (.tile false 2) 0 false) 1 [.src (.tile false 2)] (fOnly 0) none = none ∧
      s.chkValue v0 (.vexp2 v0 1 (.tile false 2) 0 false) 1 [.src (.tile false 2)] (fOnly 0) none = none ∧
      s.chkValue v0 (.vlog2 v0 1 (.tile false 2) 0 false) 1 [.src (.tile false 2)] (fOnly 0) none = none ∧
      chkVcvt v1 1 (.tile false 2) 0 true s = none ∧ chkVcvt v1 8 (.tile false 2) 0 false s = none ∧
      chkVcvt v1 1 (.tile false 8) 0 false s = none ∧ isF (vType (s.cc.vreg 1)) = true ∧ isF (vType (s.cc.vreg 8)) = false ∧
      (s.operand v1 0 (.src (.tile false 8))).active 0 0 = true ∧ (s.operand v1 0 (.src (.tile false 8))).active 1 0 = false ∧
      isFsrc (s.operand v1 0 (.src (.tile false 8))).ty = false ∧ isFsrc (s.operand v1 0 (.src (.tile false 2))).ty = true) ∧
    chkVcvt v1 8 (.tile false 2) 0 false (tiles 2 4) = none := by decide +kernel

theorem witness_VectorRawResults :
    (let s := tiles 2 7;
      s.cc.guard v0.g = true ∧
      s.chkRaw v0 (.vmov v0 1 (.tile false 2)) 1 [] [(0, .src (.tile false 2))] true = none ∧
      chkVsplat v0 1 31 0 false s = none ∧ chkVsel v0 1 (.tile false 8) (.src (.tile false 2)) (.scalar 3) s = none ∧
      s.chkRaw v1 (.vand v1 1 (.tile false 2) (.scalar 3)) 1 [] [(0, .src (.tile false 2)), (1, .scalar 3)] true = none ∧
      s.chkRaw v1 (.vor v1 1 (.tile false 2) (.scalar 3)) 1 [] [(0, .src (.tile false 2)), (1, .scalar 3)] true = none ∧
      s.chkRaw v1 (.vxor v1 1 (.tile false 2) (.scalar 3)) 1 [] [(0, .src (.tile false 2)), (1, .scalar 3)] true = none ∧
      s.chkShift v0 1 (.tile false 2) (.tile (.tile false 3)) = none ∧ s.chkShift v0 1 (.tile false 2) (.scalar 3) = none ∧
      s.chkShift v0 1 (.tile false 2) (.imm 63) = none ∧ chkVcmp v1 8 (.tile false 2) (.scalar 3) 5 s = none ∧
      isFsrc (s.operand v1 0 (.src (.tile false 2))).ty = false ∧ (5#4).toNat < 6 ∧
      s.chkMask v0 (.vmskPre v0 8 1024) 8 true = none ∧ s.chkMask v0 (.vmskRect v0 8 16 64) 8 true = none ∧
      chkVmskRng v0 8 3 s = none) ∧
    chkVcmp v1 8 (.tile false 2) (.scalar 3) 6 (tiles 0 7) = none ∧
    isFsrc ((tiles 0 7).operand v1 0 (.src (.tile false 2))).ty = true ∧ fp32.value 0x7FC00000 = .nan := by decide +kernel

theorem witness_VectorMovement :
    (let s := tiles 0 3;
      s.cc.guard v0.g = true ∧ s.chkScalarDest v1 (.tile false 2) = none ∧
      vActive (s.source v1 0 (.tile false 2)).view 15 63 = true ∧ vActive (s.source v1 0 (.tile false 8)).view 15 63 = false ∧
      vType (s.source v1 0 (.tile false 2)).view = 0 ∧ isI (vType (s.source v1 0 (.tile false 8)).view) = true ∧
      s.chkRaw v0 (.vrotr v0 1 (.tile false 2) (.imm 15)) 1 [] [(0, .src (.tile false 2))] true = none ∧
      s.chkRaw v0 (.vrotc v0 1 (.tile false 2) (.imm 63)) 1 [] [(0, .src (.tile false 2))] true = none ∧
      s.chkRaw v0 (.vbcr v0 1 (.tile false 2) (.scalar 3)) 1 [] [(0, .src (.tile false 2))] true = none ∧
      s.chkRaw v0 (.vbcc v0 1 (.tile false 2) (.imm 63)) 1 [] [(0, .src (.tile false 2))] true = none ∧
      chkVshufAll v0 1 (.tile false 2) (.tile false 8) s = none) ∧
    (0 : Nat) < 2 ^ 32 ∧ (fp32.value 0).isNan = false ∧ isF 7 = false ∧ isI 7 = false ∧
    (let ty (n : Nat) := vType ((tiles n 3).source v1 0 (.tile false 2)).view;
      ty 1 = 1 ∧ ty 9 = 9 ∧ isF (ty 9) = true ∧ ((fmtOf 9).value 0x7C01).isNan = true) ∧
    ((0xFF80 : Nat) < 2 ^ 16 ∧ (bf16.value 0xFF80).isNan = false) ∧
    fp16.value 0xFC00 = .inf true ∧ fp16.value 0x8001 = .num true 1 (-24) false := by decide +kernel

theorem witness_VectorReductions :
    (let s := tiles 0 2;
      s.cc.guard v1.g = true ∧ s.chkRed (.vredr v1 8 (.tile false 9) 2 true 0 true) true v1 8 (.tile false 9) true 0 = none ∧
      s.chkRed (.vredc v1 8 (.tile false 9) 0 false 0 false) false v1 8 (.tile false 9) false 0 = none) ∧
    (15 < 16 ∧ 63 < 64) ∧ isF 2 = false ∧ isI 2 = true ∧
    ((7 : Int) ∈ [3, 7] ∧ ∀ x ∈ [(3 : Int), 7], x ≤ 7) ∧ ((3 : Int) ∈ [3, 7] ∧ ∀ x ∈ [(3 : Int), 7], 3 ≤ x) := by decide +kernel

theorem witness_ReductionsIgnoreOrder : List.Perm [((0 : Nat), (1 : Nat)), (2, 3)] [(2, 3), (0, 1)] := by decide

theorem witness_ShapeState :
    p0.cc.guard v0.g = true ∧ (9#4).toNat < 10 ∧ 10 ≤ (10#4).toNat ∧
    (let x := ((ps 31 0x27FF).cc.sreg 31).toNat; x / 2 ^ 14 % 2 = 0 ∧ x / 2 ^ 10 % 16 < 10) ∧
    (let x := ((ps 31 0x2800).cc.sreg 31).toNat; x / 2 ^ 14 % 2 = 0 ∧ 10 ≤ x / 2 ^ 10 % 16) ∧
    (let x := ((ps 31 0x7FFF).cc.sreg 31).toNat; x / 2 ^ 14 % 2 = 1) := by decide +kernel

theorem witness_Quantisation :
    (let s := booked (tiles 0 6);
      s.cc.guard v0.g = true ∧ s.chkQlt (.vqlt v0 8 (.tile false 2) 0 1 true) v0 8 (.tile false 2) none 0 2 = none) ∧
    (let s := booked (tiles 0 4);
      chkVboff v1 8 (.tile false 2) 0 s = none) ∧
    (let s := booked (pc (fun c => { c with user := { c.user with v := [(2, 0), (3, 4 * 2 ^ 18), (63, 5 * 2 ^ 18)] } }));
      s.chkQlt (.vqltOffsets v0 63 (.tile false 2) (.tile false 3) 0 0 false) v0 63 (.tile false 2) (some (.tile false 3)) 0 1 = none) := by
  decide +kernel

theorem witness_HeldOperands :
    (∃ n, VSrc.tile true 63 = .tile true n) ∧ (2 < 3 ∧ 0 < 3 ∧ (2 : Nat) ≠ 0) ∧ (∃ n, VSrc.queue false 7 = .queue false n) ∧
    p0.queueBarred = false ∧ (p0.holdSrc v0 0 (.queue false 7)).queueBarred = false ∧
    (pc (fun c => { c with sys := true })).queueBarred = true ∧ (pc (fun c => { c with rec0 := true, tdeleg := 2 ^ 26 })).queueBarred = false ∧
    (∀ n, VSrc.queue true 0 ≠ .tile false n) ∧
    -- the held read after the view of the tile that was latched was written over
    (let t := (tiles 0 3).holdSrc v0 0 (.tile true 2);
      (t.modCC (fun c => c.putV .user 2 (7 * 2 ^ 18))).cc.holds = t.cc.holds ∧ (t.modCC (fun c => c.putV .user 2 (7 * 2 ^ 18))).queueBarred = false) :=
  ⟨⟨63, rfl⟩, by decide, ⟨7, rfl⟩, by decide +kernel, by decide +kernel, by decide +kernel, by decide +kernel, fun _ => by simp, rfl, by decide +kernel⟩

/-- The probe in a field of two tiles, with ports, trained and timed links, and power to spend. -/
def wired (f : Ctx → Ctx) : State :=
  let s := pc f
  { s with
    fields := s.fields.insert 0 { probeField 0 with w := 2, ports := 0x3F },
    col := { s.col with budget := 2400, standing := [(0, 1200)], grants := [⟨2, 0, 16, 0, 100, [], 0⟩] },
    torus := { s.torus with timed := true, dims := 0x00020202, ports := (List.range 6).map (fun p =>
      (p, { Port.idle with up := true, trained := true, lanes := 16, lat := 20, cabled := true })) } }
/-- A link descriptor's bytes at 0x1000 of the window, named by %s1. -/
def withDesc (bs : List Byte) (c : Ctx) : Ctx := { (c.putS .user 1 0x1000) with window := Mem.setBytes c.window 0x1000 bs }
/-- Raw send of 64 scratchpad bytes over port 0. -/
def rawDesc : List Byte := [0, 0, 0, 0, 1, 0] ++ List.replicate 10 0 ++ List.replicate 8 0 ++ [64, 0, 0, 0]
def redDesc : List Byte := [0, 0, 0, 3] ++ List.replicate 26 0 ++ [0]
def bcstDesc : List Byte := [0, 0, 0, 0, 1, 0] ++ List.replicate 25 0 ++ [1, 0, 0, 0, 0, 1, 0]

/-- The probe in system mode, and in the service of a freeze. -/
def sysProbe : State := pc (fun c => { c with sys := true })
def serving : State :=
  { (pc (fun c => { ((c.putS .system 2 (.ofNat 64 saveWindow)).putS .system 3 (2 ^ 18)) with sys := true })) with
    fields := [(0, { probeField 0 with ticking := false })] }
def idx4Views : Table W64 := (List.range 16).map (fun n => (n + 48, 5 * 2 ^ 18))

theorem witness_ArrayCommandsAreAccepted :
    p0.cc.guard yes = true ∧ chkWload yes true 0 (.start 0x7FFFF) (booked p0) = none ∧
    (let s := pc (fun c => { c with user := { c.user with v := idx4Views } });
      chkWloadg (.wloadg yes 48 3 true 3 0x80 .now) yes 48 true .now s = none) ∧
    (sysProbe.cc.guard yes = true ∧ chkWloadgImg yes 0 true .now sysProbe = none) ∧
    chkDrain (.drain yes 0 0 0 47 0 2 true true .now) yes 0 0 0 0 2 true .now p0 = none ∧ chkAclr yes 0 63 p0 = none ∧
    ((wired id).cc.guard yes = true ∧ chkStream yes 8 none none none (.start 100) (wired id) = none) := by decide +kernel

/-- The probe after it has issued an array command, and the number of that command. -/
def arrDone (i : Instr) (s : State) : State := run i s
def has (s : State) (p : ECmd → Bool) : Bool := (findE (s.tile 0).arr s.nextId.pred).any p || (findE (s.tile 0).arr 0).any p

theorem witness_ArrayEventsLand :
    findE (p0.tile 0).arr 7 = none ∧
    (findE ((run (.wload yes 0 false 0 0 .now) (booked p0)).tile 0).arr 0).isSome = true ∧
    (findE ((run (.aclr yes 63 0) p0).tile 0).arr 0).isSome = true ∧
    (findE ((run (.drain yes 0 0 0 0 0 2 false false .now) p0).tile 0).arr 0).isSome = true ∧
    (let c := findE ((run (.stream yes 8 none none none (.start 100)) (wired (fun c => c.putS .user 8 (2 ^ 16)))).tile 0).arr 0;
      c.any (fun c => !c.stopped && decide (1 < c.desc.m) && !bitAt (c.masks[0]?.getD 0) 0) = true ∧
      c.any (fun c => decide (c.desc.m ≤ 2)) = true ∧ c.any (fun c => decide (c.loadPlane = none)) = true) ∧
    (0 < 256 ∧ 254 < 255 ∧ (255 : Nat) < 256 ∧ ((0, 0) : Nat × Nat) ≠ (0, 255)) := by decide +kernel

/-- A stream of one row with its masks at 1: one active cell, of the zero entry, and a valid entry for it to meet. -/
theorem witness_ArrayEventsLand_row :
    let s := run (.stream yes 8 none none none (.start 100)) ((booked (wired (fun c => c.putS .user 8 (2 ^ 16)))).modCT
      (fun t => { t with cells := [(0, 0xC000)] }));
    let u := s.modTile 0 (fun t => { t with arr := t.arr.map (fun c => { c with masks := [1, 1, 1] }) });
    (findE (u.tile 0).arr 0).any (fun c => !c.stopped && decide (0 < c.desc.m) && bitAt (c.masks[0]?.getD 0) 0 && decide (c.desc.src = 0) &&
      decide (c.masks = [1, 1, 1]) && decide (c.desc.a = 1) && bitAt (((u.tile 0).bank (c.bound[0]?.getD (0, 0)).1).entry (c.bound[0]?.getD (0, 0)).2 0).toNat 15) = true ∧
    (u.tile 0).unjoined = [] ∧ (u.tile 0).cells.all (fun z => bitAt z.2.toNat 15) = true ∧ (u.tile 0).scratch = [] ∧
    (∀ k, k < 256 → bitAt 1 k = true → k = 0) ∧ (1 : Nat) < 2 ^ 256 := by decide +kernel

theorem witness_ContributionsCommute :
    List.Perm [((5 : Int), true), (-7, false)] [(-7, false), (5, true)] ∧ (2 ^ 49 - 1 : Nat) < 2 ^ 49 := by decide

theorem witness_CodebooksAndArrayMode :
    p0.cc.guard yes = true ∧ chkAmodeNorm yes p0 = none ∧ grouped.cgrouped = true ∧ grouped.cc.guard yes = true ∧ p0.cgrouped = false ∧
    chkAmodeSplit yes p0 = none ∧ chkCbld (.cbld yes 15 1 254 0) yes 15 254 0 p0 = none ∧ chkCbldRestore yes 0 0 sysProbe = none ∧
    chkCbflip yes 15 p0 = none ∧ (Tile.idle.bank 15).act ≤ 1 ∧ (1 : Nat) ≠ 15 ∧ (1 ≤ 255 ∧ 255 < 1 + 255) := by decide +kernel

def noEa : Ea := ⟨0, 0, true, false⟩
def postEa : Ea := ⟨1, 15, false, true⟩

theorem witness_ScratchpadAccesses :
    p0.cc.guard yes = true ∧ chkLds (.lds yes 1 postEa false 3 true 0 none) yes postEa false 3 none p0 = none ∧
    (let s := ps 1 0x5FFF8; chkLds (.lds yes 1 postEa false 3 false 0 none) yes postEa false 3 none s = none) ∧
    chkSts (.sts yes 1 noEa false 0 0 none) yes noEa false 0 none p0 = none ∧
    chkTld (.tld yes 1 noEa false 0 0 none false) yes 1 noEa false 0 none p0 = none ∧
    chkTst (.tst yes 9 noEa false 0 0 none) yes 9 noEa false 0 none (tiles 7 6) = none ∧
    ((0, 0) ∈ linesOf 0 (p0.cc.pline.getD 0) 512) := by decide +kernel

def copyDesc : List Byte := List.replicate 16 0 ++ [64, 0, 0, 0, 1, 0, 0, 0, 1]
def zDescBytes : List Byte := List.replicate 24 0 ++ [128]

theorem witness_AsynchronousCommandsAreAccepted :
    (let s := tiles 7 7;
      s.cc.guard yes = true ∧ chkLds (.lds yes 1 noEa true 3 true 15 (some 2)) yes noEa true 3 (some 2) s = none ∧
      chkSts (.sts yes 1 noEa true 3 15 (some 2)) yes noEa true 3 (some 2) s = none ∧
      chkAtom (.atom yes 1 noEa true 9 2 3 15 (some 2)) yes noEa true (some 2) s = none) ∧
    (chkTld (.tld yes 1 postEa true 0 0 none true) yes 1 postEa true 0 none p0 = none ∧
      chkTst (.tst yes 1 postEa true 0 0 none) yes 1 postEa true 0 none p0 = none ∧
      chkAtomt (.atomt yes 1 postEa 0 2 15 none) yes 1 postEa 0 2 none p0 = none) ∧
    (∀ i ∈ [Instr.hintReq yes postEa 255 (some 15), .hintFill yes postEa 255 (some 15), .hintDrop yes postEa 255 (some 15),
      .hintL2 yes postEa 255 (some 15)], i.wf = true) ∧
    chkFence (.fence yes 0x1F 1 15) p0 = none ∧ sysProbe.cc.guard yes = true ∧ chkTlbinv yes 0 0 sysProbe = none ∧
    chkTlbinvDie yes 0 sysProbe = none ∧ (pc (withDesc copyDesc)).cc.guard yes = true ∧ chkCpy yes 1 0 0 (pc (withDesc copyDesc)) = none ∧
    chkCpyz yes 2 1 true (pc (withDesc zDescBytes)) = none ∧ chkCpyz yes 2 1 false (pc (withDesc zDescBytes)) = none ∧
    chkWstore yes 1 2 (ps 2 0x1FFF000) = none ∧ chkWstorePlane yes 1 true sysProbe = none ∧ chkCbst yes 15 1 p0 = none := by
  decide +kernel

theorem witness_ImageCommandsAreAccepted :
    serving.cc.guard yes = true ∧ chkImage yes 0x15 none 2 serving = none ∧ chkBlk yes 0x15 2 3 serving = none ∧
    chkImage yes 0x16 none 2 serving = none ∧ chkImage yes 0x16 (some 0) 2 serving = none ∧ chkBlk yes 0x16 2 3 serving = none ∧
    chkImage yes 0x15 (some 0) 2 serving = none := by decide +kernel

/-- The probe with stash map 3 enabled. -/
def mapped : State := pc (fun c => { c with stmap := [(3, 2 ^ 31)] })

theorem witness_StashVjoinAndBcall :
    p0.cc.guard yes = true ∧ chkStash yes 0 10 15 5 0 2048 p0 = none ∧ (p0.cc.map 3).en = false ∧
    (mapped.cc.guard yes = true ∧ (mapped.cc.map 3).en = true) ∧ chkBcall (.bcall yes 0 26 15) yes 0 p0 = none ∧
    (p0.seqr (callWord (p0.cc.sreg 0)).pch).withdrawn = false ∧
    (let s := { p0 with seqrs := [(0, { Seqr.idle with withdrawn := true })] };
      chkBcall (.bcall yes 0 26 15) yes 0 s = none ∧ (s.seqr (callWord (s.cc.sreg 0)).pch).withdrawn = true) := by decide +kernel

theorem witness_MeshAndLinkCommandsAreAccepted :
    (wired id).cc.guard yes = true ∧ chkMsend yes 1 (.tile 2) .now (wired id) = none ∧
    chkMrecv yes 1 (.lines 31) (.start 100) (wired (fun c => c.putS .user 31 (2 ^ 16 * 4095))) = none ∧
    chkLsend yes 1 (.start 100) (wired (withDesc rawDesc)) = none ∧ chkLrecv yes 1 (.start 100) (wired (withDesc rawDesc)) = none ∧
    chkLred yes 1 (.start 100) (wired (withDesc redDesc)) = none ∧ chkLbcst yes 1 (.start 100) (wired (withDesc bcstDesc)) = none := by
  decide +kernel

/-- What the state holds once an asynchronous command was accepted: the command, with its event. -/
def issued (i : Instr) (s : State) : State := run i s
def theCmd (s : State) : Option Cmd := s.cmds.getLast?
/-- A command found again under its number satisfies `p`. -/
def found (s : State) (p : Cmd → Bool) : Bool := (theCmd s).any (fun c => (s.cmd c.id).any p)
def modCmds (s : State) (f : Cmd → Cmd) : State := { s with cmds := s.cmds.map f }

theorem witness_CompletionCountsItsEvent :
    (theCmd (issued (.sts yes 1 noEa true 0 15 none) p0)).any (fun c => c.ev == some 15 && !c.svc &&
      (issued (.sts yes 1 noEa true 0 15 none) p0).live c.field &&
      ((issued (.sts yes 1 noEa true 0 15 none) p0).saved.find c.field).isNone) = true ∧
    (theCmd (issued (.hintReq yes noEa 0 none) p0)).any (fun c => c.ev == none) = true := by decide +kernel

/-- All cells of a command lie in one 16-byte unit, of which it has some. -/
def oneUnit (c : Cmd) : Bool := !c.cells.isEmpty && c.cells.all (fun m => m.addr / 16 == (c.cells.headD ⟨0, 0, 0⟩).addr / 16)

theorem witness_AsynchronousEventsComplete_copies :
    p0.cmd 7 = none ∧
    (let s := issued (.wstore yes 1 2 15) p0;
      found s (fun c => oneUnit c && c.cells.all (fun m => !s.weightClash c m)) = true) ∧
    (let s := modCmds (issued (.wstorePlane yes 1 0 false 15) sysProbe) (fun c => { c with cells := [⟨34822, 255, 0⟩] });
      found s oneUnit = true) ∧
    (let s := modCmds (issued (.cbst yes 0 1 15) p0) (fun c => { c with cells := [⟨8207, 255, 0⟩] }); found s oneUnit = true) ∧
    (let s := modCmds (issued (.cpy yes 1 0 0 15 true 3) (pc (withDesc copyDesc))) (fun c => { c with prog := 1 });
      found s (fun c => decide (c.shape.total ≤ 128 * c.prog)) = true) ∧
    (let s := modCmds (issued (.cpyzSt yes 2 1 3 15 true 3) (pc (withDesc zDescBytes))) (fun c => { c with pitch := 1, prog := 2 });
      found s (fun c => decide (0 < c.prog) && decide (c.writeSteps ≤ c.prog)) = true) ∧
    (let s := modCmds (issued (.cpyzLd yes 2 1 3 15 true 3) (pc (withDesc zDescBytes))) (fun c => { c with prog := 34 });
      found s (fun c => decide (0 < c.prog) && decide (c.readUnits.getD 0 < c.prog)) = true) ∧
    (let s := modCmds (issued (.csaveTile yes 2 15) serving) (fun c => { c with prog := 64 });
      found s (fun c => decide (c.pitch ≤ 128 * c.prog)) = true) ∧
    (let s := modCmds (issued (.cloadCtx yes 0 2 15) serving) (fun c => { c with prog := 1504 });
      found s (fun c => decide (c.pitch ≤ 128 * c.prog)) = true) := by decide +kernel

/-- Whether an access that is tried now meets a violation, and whether nothing of it is left. -/
def fires (s : State) (p : Cmd → Bool) : Bool := (theCmd s).any (fun c => p (s.fire c []).1)

/-- The probe with line 0 of its field's memory in its stash. -/
def stashed : State := pc (fun c => { c with stmap := [(0, 2 ^ 31)], stash := [⟨0, 0, 0, [], true, true⟩] })

theorem witness_AsynchronousEventsComplete_accesses :
    (let s := issued (.lds yes 1 noEa true 3 true 15 none) stashed;
      found s (fun c => c.isLoad && c.viol.isNone) = true ∧ fires s (fun c => c.viol.isNone && c.wait.isEmpty) = true) ∧
    (let s := issued (.sts yes 1 noEa true 3 15 none) stashed;
      found s (fun c => c.isStore && !c.isWriteBack && c.viol.isNone) = true ∧ fires s (fun c => c.viol.isNone && c.wait.isEmpty) = true) ∧
    (let s := issued (.sts yes 1 ⟨2, 0, true, false⟩ true 3 15 none) (ps 2 (2 ^ 63));
      found s (fun c => c.isStore && c.viol.isNone) = true ∧ fires s (fun c => c.viol.isSome) = true) := by decide +kernel

theorem witness_AsynchronousEventsComplete_others :
    (let s := modCmds (issued (.atom yes 1 noEa true 9 2 3 15 none) p0) (fun c => { c with
        made := true, xl := [⟨0, false, false, 0, 0, true, true, false⟩], wait := [0] });
      found s (fun c => c.isAtomic && c.viol.isNone && c.made && decide (c.wait = [0]) && !s.drawFree.2.blocked c 0 &&
        (s.drawFree.2.applyAtomic c ⟨0, false, false, 0, 0, true, true, false⟩ []).any (fun p => decide (p.1.wait = c.wait))) = true) ∧
    (let s := modCmds (issued (.atom yes 1 noEa true 9 2 3 15 none) p0) (fun c => { c with made := true, wait := [] });
      found s (fun c => c.made && c.wait.isEmpty) = true) ∧
    (let s := modCmds (issued (.atomt yes 1 noEa 0 2 15 none) p0) (fun c => { c with made := true, wait := [] });
      found s (fun c => c.made && c.wait.isEmpty) = true) ∧
    (let s := modCmds (issued (.hintReq yes noEa 0 (some 15)) p0) (fun c => { c with wait := [] });
      found s (fun c => c.isHint && c.wait.isEmpty && c.fset.all (fun w => (s.cmd w).isNone)) = true) ∧
    (let s := issued (.fence yes 1 2 15) p0;
      found s (fun c => c.fset.all (fun w => (s.cmd w).isNone) && c.flags.isEmpty) = true ∧ hasC 2 = false ∧ hasC 1 = false) ∧
    (let s := issued (.tlbinvDie yes 0 15) sysProbe; found s (fun c => decide (vPkg c.addr = s.pkgNum)) = true) ∧
    (let s := modCmds (issued (.sts yes 1 noEa true 3 15 none) p0) (fun c => { c with viol := some 5 });
      found s (fun c => decide (c.viol = some 5)) = true) ∧
    (let s := modCmds (issued (.sts yes 1 noEa true 3 15 none) p0) (fun c => { c with ins := .homeSliceStoreAccept 0 });
      found s Cmd.isWriteBack = true) := by decide +kernel

theorem witness_MeshAndLinkEvents :
    findE (p0.tile 0).arr 7 = none ∧ findE (p0.tile 0).mesh 7 = none ∧ findE (p0.tile 0).link 7 = none ∧
    (let s := run (.drain yes 0 63 0 47 0 2 true true .now) p0; (findE (s.tile 0).arr 0).isSome = true) ∧
    (let s := run (.msend yes 1 (.tile 2) .now) (wired id);
      (findE (s.tile 0).mesh 0).any (fun c => c.meshPort.1 && decide (0 + 1 < beatsOf c.meshLen) &&
        decide (neighbour 0 c.meshPort.2 = some 1)) = true) ∧
    (let s := run (.mrecv yes 1 (.lines 31) (.start 100)) (wired (fun c => c.putS .user 31 (2 ^ 16 * 9)));
      (findE (s.tile 0).mesh 0).any (fun c => !c.meshPort.1 && decide (0 + 1 < beatsOf c.meshLen) &&
        ((s.tile 0).beats.find? (fun b => b.field == 0 && b.port == c.meshPort.2 && b.at_ == c.t + 0)).isNone) = true) ∧
    (let s := run (.lsend yes 1 3 15 (.start 100)) (wired (withDesc rawDesc)); (findE (s.tile 0).link 0).any (fun c => !c.started) = true) ∧
    (let s := run (.lrecv yes 1 3 15 (.start 100)) (wired (withDesc rawDesc)); (findE (s.tile 0).link 0).isSome = true) ∧
    (let s := run (.lred yes 1 3 15 (.start 100)) (wired (withDesc redDesc));
      (findE (s.tile 0).link 0).any (fun c => !c.stopped && decide (2 < c.linkD.out)) = true) ∧
    (let s := (run (.lred yes 1 3 15 (.start 100)) (wired (withDesc redDesc))).modTile 0
        (fun t => { t with link := t.link.map (fun c => { c with stopped := true }) });
      (findE (s.tile 0).link 0).any (fun c => c.stopped) = true) ∧
    (let s := run (.lbcst yes 1 3 15 (.start 100)) (wired (withDesc bcstDesc)); (findE (s.tile 0).link 0).isSome = true) ∧
    ((3#5) ≠ 0) := by decide +kernel

/-- The package that has come up: powered, at stage 5, its time base running. -/
def up : State :=
  { State.reset with hport := { HostPort.reset with stage := 5, stgBase := 0 }, pkg := { PkgRegs.reset with ready := true },
                     torus := { Torus.reset with timed := true, root := true } }
def staged (k : Nat) : State := { State.reset with hport := { HostPort.reset with stage := k } }

theorem witness_ResetsAndBringUp :
    State.reset.pkg.powered = true ∧ (up.bar0Open = true ∧ up.hport.shutdown = false) ∧
    ((staged 0).pkg.powered = true ∧ (staged 0).hport.stage = 0) ∧ ((staged 1).pkg.powered = true ∧ (staged 1).hport.stage = 1) ∧
    (imageResult 0 0 0 [] ≠ 0) ∧ ((staged 2).pkg.powered = true ∧ (staged 2).hport.stage = 2) ∧
    ([Finding.ioDie].any Finding.fatal = true ∧ ([] : List Finding).any Finding.fatal = false) ∧
    ((staged 3).pkg.powered = true ∧ (staged 3).hport.stage = 3) := by decide +kernel

theorem witness_TemperatureAndErrors :
    ({ up with pkg := { up.pkg with powered := false } }).pkg.powered = false ∧ up.pkg.powered = true ∧
    ((100 : Int) ≤ 110 ∧ up.pkg.temp < 100 ∧ up.pkg.temp < 110) ∧ ((94 : Int) < 95 ∧ (95 : Int) ≤ 99 ∧ (99 : Int) < 100) ∧
    (10 ≤ 10 ∧ 10 ≠ 8) ∧ (2 ≤ (6#8).toNat ∧ (6#8).toNat ≤ 6 ∧ up.fieldsOn (· == 255) = []) ∧
    (let s := { up with pkg := { up.pkg with errs := [(6, 255, 0)] } };
      s.pkg.errs.any (fun x => x.1 == 6 && x.2.1 == 255 && decide (s.now < x.2.2 + hourCycles)) = true) := by decide +kernel

theorem witness_ColScorebookAndShutdown :
    up.bar0Writes = true ∧ up.torus.timed = true ∧ up.pkg.powered = true ∧ up.sb.shadow.wf 0 = true ∧ up.sb.counters.wf 0 = true ∧ up.bar0Open = true ∧
    up.hport.shutdown = false ∧ bitAt up.sb.stat 0 = false ∧ bitAt ({ up.sb with stat := 1 } : Scorebook).stat 0 = true ∧
    (let s := { up with hport := { up.hport with shutdown := true } };
      s.hport.shutdown = true ∧ s.hport.offok = false ∧ s.fields.any (fun e => e.2.ticking) = false) ∧
    p0.fields.any (fun e => e.2.ticking) = true ∧ (0x10 + tempBin 0 = 0x10 + tempBin up.pkg.temp) := by decide +kernel

/-- The machine's six ports, up, with a time flit received on port 5. -/
def linked : State := { (wired id) with hport := { HostPort.reset with stage := 4 }, torus := { (wired id).torus with
  timed := true, ports := [(5, { Port.idle with up := true, trained := true, rx := some (0, [0xFFFE]) })] } }

theorem witness_TorusEvents :
    linked.bar0Writes = true ∧ linked.bar0Open = true ∧ (linked.hport.stage = 4 ∨ linked.hport.stage = 5) ∧ linked.torusOk = true ∧ ({ up with torus := { up.torus with dims := 0xFFFFFFFF } }).torusOk = false ∧ (wired id).torusOk = true ∧
    (3 ∈ (wired id).livePorts) ∧ ((0xFFF#32).toNat % 4096 = 4095 ∧ (0xFFC#32).toNat % 4096 ≤ 4092) ∧
    (let s := { up with torus := { up.torus with timed := false, training := true } };
      s.torus.timed = false ∧ s.torus.training = true ∧ s.torus.root = true) ∧ up.torus.timed = true ∧ (up.port 5).up = false ∧
    (linked.port 5).up = true ∧ (none : Option (List Byte)).filter sealed = none ∧ sealed (withSeal (List.replicate 60 0)) = true ∧
    ((linked.port 5).rx = some (0, [0xFFFE]) ∧ ([0xFFFE] : List Nat)[1 - 1]? = some 0xFFFE) := by decide +kernel

/-- A packet of a type with its body bytes from byte 4 on, in queue 0 or `q` with sequence number 0. -/
def packet (type flags : Nat) (body : List Byte) : List Byte := withSeal ([.ofNat 8 type, .ofNat 8 flags, 0, 0] ++ body)
/-- The package up, with queue `q` enabled and holding one slot of these bytes. -/
def queued (q : Nat) (bs : List Byte) : State :=
  { up with hport := { up.hport with
    qmem := Mem.setBytes [] (16384 * q) bs, queues := [(q, { Queue.idle with en := true, tail := 1 })],
    msix := (List.range 32).map (fun v => (4 * v + 3, 1)) } }

theorem witness_QueuesAndRegisters :
    (let s := queued 0 (packet 2 0 [5, 0]);
      let p := s.slotPkt 0;
      s.reads 0 = true ∧ (p.num 2 2 == p.seq && sealed p.bytes) = true ∧ s.packetError p = 0) ∧
    (let s := queued 1023 (packet 4 0 [5, 0]);
      let p := s.slotPkt 1023;
      s.reads 1023 = true ∧ (p.num 2 2 == p.seq && sealed p.bytes) = true ∧ s.packetError p ≠ 0) ∧
    (let s := queued 0 [];
      let p := s.slotPkt 0;
      s.reads 0 = true ∧ (p.num 2 2 == p.seq && sealed p.bytes) = false ∧ (s.queue 0).firstRead = none) ∧
    (let s := { up with now := 4000, hport := { up.hport with queues := [(0, { Queue.idle with en := true, tail := 1, firstRead := some 0 })] } };
      (s.queue 0).firstRead = some 0 ∧ 0 + 4000 ≤ s.now ∧ s.reads 0 = true) ∧
    (up.bar0Writes = true ∧ 256 < (BitVec.ofNat 16 257 - (up.queue 5).head).toNat ∧ (up.queue 5).err = false ∧
      (BitVec.ofNat 16 0 - (up.queue 5).head).toNat ≤ ((up.queue 5).tail - (up.queue 5).head).toNat ∧
      ((up.queue 5).tail - (up.queue 5).head).toNat < (BitVec.ofNat 16 256 - (up.queue 5).head).toNat ∧
      (BitVec.ofNat 16 256 - (up.queue 5).head).toNat ≤ 256) ∧
    ((queued 5 []).queue 5).en = true ∧ (up.queue 5).en = false ∧
    (0x110018 ≤ (0x110018#26).toNat ∧ (0x110018#26).toNat < 0x120000 ∧ (0x110018#26).toNat % 4 = 0) ∧
    State.reset.bar0Writes = false ∧ (up.bar0Open = true ∧ (3 : Nat) ≠ 4 ∧ (3 : Nat) ≠ 8) ∧
    (let s := { up with hport := { up.hport with fqProd := 1024 } }; s.hport.fqFull = true) ∧
    (let s := { up with hport := { up.hport with fqProd := 1023, fqWait := [List.replicate 32 7] } };
      s.hport.fqFull = false ∧ s.hport.fqWait = List.replicate 32 7 :: [] ∧ s.batchDies = []) ∧
    (let s := { up with now := 40000, dies := [(3, { Die.idle with open_ := some ⟨[], 0, none⟩ })] };
      (s.die 3).open_ = some ⟨[], 0, none⟩ ∧ 0 + 40000 ≤ s.now) ∧
    ((39999 : Nat) < 0 + 40000) := by decide +kernel

def pkt (type flags : Nat) (body : List Byte) : Pkt := ⟨0, 0, packet type flags body, 7, false⟩
/-- The package up, with this packet taken from queue 0, or started. -/
def taken (p : Pkt) : State := { up with hport := { up.hport with queues := [(0, { Queue.idle with en := true, taken := [p] })] } }
def started (p : Pkt) : State :=
  { up with pkt := p, hport := { up.hport with queues := [(0, { Queue.idle with en := true, started := [p] })],
                                               msix := (List.range 32).map (fun v => (4 * v + 3, 0)) } }

theorem witness_PacketsAndStaging :
    ((started (pkt 7 1 [])).queue 0).started.find? (fun y => y.id == (pkt 7 1 []).id) = some (pkt 7 1 []) ∧
    pktNotify (pkt 7 1 []) = true ∧ pktNotify (pkt 7 0 []) = false ∧ (started (pkt 7 1 [])).hport.masked (4 + 0 % 28) = false ∧
    up.mayStart 0 = none ∧ (taken (pkt 2 0 [5, 0])).mayStart 0 = some (pkt 2 0 [5, 0]) ∧
    (let s := started (pkt 7 0 []); s.startedWhere (fun y => pktType y == 7 && s.waitHolds y) = [pkt 7 0 []]) ∧
    (started (pkt 9 0 [])).readyFences = [pkt 9 0 []] ∧
    (let s := started (pkt 5 0 [5, 0, 6, 0]); s.grouped (s.pkt.num 4 2) = false ∧ s.grouped (s.pkt.num 6 2) = false) ∧
    up.cmd 7 = none ∧
    (let s := run .copy (started (pkt 8 0 [5, 0, 0, 0] )); found s (fun c => decide (c.ins = .copy) && decide (c.shape.total ≤ 128 * c.prog) &&
      c.lowest.isNone) = true ∧ s.hport.shutdown = false) ∧
    (up.hport.loading = none ∧ up.imageWaits = false) ∧
    (let s := { up with seqrs := [(0, { Seqr.idle with session := some ⟨0, 63, none, some 0, false⟩ })] };
      s.unitsBusy = true ∧ s.hport.loading = none) ∧
    (let s := started (pkt 11 0 [2, 0, 5, 0]); s.pkt.num 4 1 = 2 ∧ s.live (s.pkt.num 6 2) = false) ∧
    (let s := started (pkt 11 0 [3]); 2 < s.pkt.num 4 1) ∧
    (let s := { up with hport := { up.hport with mbNext := some (0, [1, 2], pkt 11 0 []) } }; s.hport.mbNext = some (0, [1, 2], pkt 11 0 [])) ∧
    ((up.stageLines false 0x3FFFFFFC 4).2.2.linesBusy (up.stageLines false 0x3FFFFFFC 4).2.1 false = false) ∧
    (up.bar0Writes = true ∧ (up.stageLines true 0 4).2.2.linesBusy (up.stageLines true 0 4).2.1 true = false) := by decide +kernel

/-- The package up, with field 0 standing as `x` says, and a packet that names it. -/
def fieldIs (x : Field) : State := { up with fields := [(0, x)], pkt := pkt 2 0 [0, 0], ctxs := [(0, probeCtx)] }
def standing (st : FState) : Field := { Field.blank with state := st }
def runsNow : Field := { Field.blank with state := .running, ticking := true }
/-- A die that holds an image of one halfword at its first byte, which the table window shows; and a field of that image. -/
def imageDie : Die := { Die.idle with hbm := Mem.setBytes [] 0 [0x4B, 0x58, 0x49, 0x4D, 1] }
def imaged : State := { (fieldIs { standing .loading with image := tableWindow }) with dies := [(0, imageDie)] }

theorem witness_FieldsRunFreezeAndEnd_packets :
    (let s := fieldIs (standing .waiting);
      s.groups = [] ∧ s.pkt.num 4 2 = 0 ∧ s.live 0 = true ∧ (s.field 0).state = .waiting ∧ s.live 1 = false) ∧
    (let s := fieldIs runsNow;
      s.live 0 = true ∧ (s.field 0).state = .running ∧ s.poolRoom 0 = true ∧
      (s.modField 0 (fun y => { y with evicters := y.evicters ++ [(s.pkt.q, s.pkt.id)] })).poolRoom 0 = true ∧
      (s.field 0).ticking = true ∧ (s.field 0).span < 2) ∧
    (let s := fieldIs (standing .parked); s.live 0 = true ∧ (s.field 0).state = .parked ∧ (s.field 0).resumeG = none ∧
      s.hport.shutdown = false ∧ (s.field 0).noLambda = false) ∧
    (let s := { (fieldIs (standing .ready)) with col := { Col.reset with budget := 2400 } };
      s.hport.shutdown = false ∧ s.pkg.ready = true ∧ s.fields = [(0, s.field 0)] ∧ (s.field 0).state = .ready ∧
      (s.queue (s.field 0).queue).prio < 8 ∧ (s.field 0).claim = none ∧ (s.fits 0).isSome = true) ∧
    ({ up with hport := { up.hport with shutdown := true } }).hport.shutdown = true ∧
    (let s := fieldIs (standing .loading);
      s.early = [] ∧ s.live 0 = true ∧ (s.field 0).state = .loading ∧ (s.imageBytes (s.field 0).image 128 []).1 = some none) ∧
    (let s := imaged;
      (s.field 0).span < 2 ∧ s.early = [] ∧ s.hport.shutdown = false ∧ s.live 0 = true ∧
      (s.imageBytes tableWindow 128 []).1.any (fun b => b.any (fun b => !badHead b (s.field 0) false && decide (numAt b 4 2 = 1) &&
        decide (numAt b 6 2 = 0))) = true ∧
      ((s.imageBytes tableWindow 128 []).2.imageBytes (tableWindow + 128) 2 []).1.any Option.isSome = true ∧
      (((s.imageBytes tableWindow 128 []).2.imageBytes (tableWindow + 128) 2 []).2.imageBytes (tableWindow + dictStart 1) 0 []).1.any Option.isSome = true) := by decide +kernel

theorem witness_FieldsRunFreezeAndEnd_events :
    (let s := fieldIs { standing .starting with resumeG := some 0 };
      s.live 0 = true ∧ (s.field 0).state = .starting ∧ (s.field 0).resumeG = some s.global ∧ (s.field 0).toEvict = false ∧
      s.pkg.thtrip = false ∧ s.hport.shutdown = false ∧ s.hport.offok = false) ∧
    (let s := { (fieldIs { standing .starting with resumeG := some 0 }) with pkg := { up.pkg with thtrip := true } };
      s.groups = [] ∧ s.live 0 = true ∧ s.hport.offok = false ∧ s.pkg.thtrip = true ∧ (s.field 0).state = .starting ∧
      (s.field 0).resumeG = some s.global) ∧
    (let s := { (fieldIs { standing .parked with resumeG := some 0 }) with pkg := { up.pkg with thtrip := true } };
      s.groups = [] ∧ s.live 0 = true ∧ s.hport.offok = false ∧ s.pkg.thtrip = true ∧ (s.field 0).state = .parked ∧
      (s.field 0).resumeG = some s.global) ∧
    (let s := fieldIs { runsNow with state := .freezing, freezeF := some 4 };
      s.live 0 = true ∧ (s.field 0).state = .freezing ∧ (s.field 0).ticking = true ∧ (s.field 0).freezeF = some 4 ∧ s.tcycOf 0 < 4 ∧
      4 ≤ ({ s with now := 4 }).tcycOf 0) ∧
    (let s := fieldIs (standing .freezing);
      (s.field 0).ticking = false ∧ (s.field 0).toEvict = false ∧ (s.field 0).quietAt ≤ s.global) ∧
    (let s := fieldIs (standing .evicting); s.live 0 = true ∧ (s.field 0).state = .evicting ∧ s.cmdsLeft 0 = false) ∧
    (let s := { (fieldIs (standing .evicting)) with cmds := (run (.sts yes 1 noEa true 3 15 none) p0).cmds }; s.cmdsLeft 0 = true) ∧
    (let s := fieldIs (standing .restoring); s.live 0 = true ∧ (s.field 0).state = .restoring ∧ s.cmdsLeft 0 = false ∧
      s.hport.shutdown = false ∧ (s.field 0).noLambda = false) ∧
    (let s := fieldIs { standing .parked with resumeG := some 0 };
      (s.field 0).state = .parked ∧ (s.field 0).resumeG = some s.global ∧ (s.field 0).tcStop ≤ s.now ∧ s.live 0 = true ∧
      s.pkg.thtrip = false ∧ s.hport.shutdown = false ∧ s.hport.offok = false) ∧
    (let s := { (fieldIs runsNow) with ctxs := [(0, { probeCtx with done := true })] };
      (s.field 0).state = .running ∧ (s.field 0).ticking = true ∧ (s.field 0).span < 2 ∧
      ∀ r ∈ (s.field 0).rels, (s.place 0 r).1.done = true ∨ (s.place 0 r).1.halted = true) := by decide +kernel

/-- A sealed notice of field 0 from package 1, with SERIAL 9, at a cycle. -/
def noticeFlit (cycle : Nat) : List Byte := withSeal ([0, 0, 0, 0, 1, 0, 9, 0] ++ leBytes 8 cycle)
def dom0 : DomKey := ⟨0, 5, 0, 0⟩
def inDomain (d : Domain) (x : Field) : State := { (fieldIs x) with doms := [(dom0, d)] }

theorem witness_NoticesAndReleases :
    sealed (List.replicate 64 1) = false ∧ ((1, 9) ∈ ({ up with seen := [(1, 9)] }).seen) ∧ up.live (noticeAt (noticeFlit 64)).field = false ∧
    (let s := fieldIs { runsNow with span := 2 };
      let n := noticeAt (noticeFlit 64);
      sealed (noticeFlit 64) = true ∧ (n.origin, n.serial) ∉ s.seen ∧ s.live n.field = true ∧ 2 ≤ (s.field n.field).span ∧
      (s.field n.field).placed = true ∧ (∀ e ∈ (s.field n.field).notices, e.1 ≠ n.origin) ∧ (s.field n.field).state = .running ∧
      s.global + 64 ≤ n.cycle ∧ n.phase = (s.domain (spanDomain n.field n.dom)).phase.toNat ∧
      (∀ r ∈ (s.domain (spanDomain n.field n.dom)).remote, ¬(r.1 = n.origin ∧ r.2.1 = n.phase))) ∧
    (let s := fieldIs { standing .parked with span := 1024 }; (s.field 0).ticking = false ∧ (s.field 0).resumeG = none ∧ 2 ≤ (s.field 0).span) ∧
    (let s := inDomain ⟨0, [(0, 4)], [], false⟩ runsNow;
      (s.domain dom0).arrivals = (0, 4) :: [] ∧ (s.domain dom0).releasing = false ∧ s.live dom0.field = true) ∧
    (let s := { (inDomain ⟨0xFFFF, [(0, 4)], [], true⟩ runsNow) with ctxs := [(0, { probeCtx with phase := some ⟨dom0, true, false⟩ })] };
      (s.domain dom0).releasing = true ∧ s.live dom0.field = true ∧ 0 ∈ (s.field dom0.field).rels ∧
      (s.field dom0.field).container 0 dom0.level = dom0.cont ∧ 0 ∈ (s.domain dom0).arrivals.map (·.1) ∧
      (s.ctx ((s.field dom0.field).locate 0).1 ((s.field dom0.field).locate 0).2).phase = some ⟨dom0, true, false⟩) ∧
    (let s := fieldIs (standing .parked); (s.ctx 0 0).field = some 0 ∧ (s.field 0).state = .parked ∧ (s.field 0).resumeG = none ∧
      s.now < (s.field 0).parkedAt + 2000000 ∧ (s.field 0).parkedAt + 2000000 ≤ ({ s with now := 2000000 }).now) := by
  decide +kernel

def call (entry : Nat) : Call := ⟨1, 511, 0, 0, false, 15, entry, 63, 65535, [0, 0, 0, 0, 0, 0]⟩
def session : Session := ⟨0, 63, none, some 0, false⟩
/-- Field 0 running, and pseudo-channel 511 as `q` says, which acts. -/
def channel (q : Seqr) : State := { (fieldIs runsNow) with seqrs := [(511, q)], selPch := 511, calls := [call 0] }
def expecting (n : Nat) : Seqr := { Seqr.idle with expect := [(0, 63, n)], held := [call 0] }
def runs (entry : Nat) (ended : Bool) : Seqr := { Seqr.idle with running := some ⟨call entry, 255, 0, ended, []⟩ }

/-- Notices where no cycle is fixed yet and where a later one is, a resend that is due, and a window whose resumption is asked for. -/
theorem witness_NoticesAndReleases_earliest :
    (let s := fieldIs { runsNow with span := 2 };
      (s.field 0).ticking = true ∧ (s.field 0).freezeF = none ∧ s.global + 64 ≤ (noticeAt (noticeFlit 64)).cycle) ∧
    (let s := fieldIs { runsNow with span := 2, state := .freezing, freezeF := some 65 };
      (noticeAt (noticeFlit 64)).cycle < s.global + (65 - s.tcycOf 0)) ∧
    ((64 : Nat) < 65 ∧ (fieldIs { standing .parked with span := 2, resumeG := some 65 }).field 0 =
      { standing .parked with span := 2, resumeG := some 65 }) ∧
    (let s := inDomain ⟨3, [(0, 4)], [(0, 3, 9)], false⟩ runsNow;
      (s.domain dom0).remote.find? (fun m => m.1 == s.pkgNum && m.2.1 == (s.domain dom0).phase.toNat) = some (0, 3, 9) ∧
      (s.domain dom0).releasing = false ∧ ∀ m ∈ (s.domain dom0).remote, m.2.1 = (s.domain dom0).phase.toNat) ∧
    ((fieldIs (standing .parked)).field 0).resumeReq = none ∧
    (sealed (noticeFlit 64) = true ∧ ((noticeAt (noticeFlit 64)).origin, (noticeAt (noticeFlit 64)).serial) ∉ up.seen) := by decide +kernel

theorem witness_BankUnitCalls :
    (let s := channel { (expecting 65535) with held := [] };
      s.calls.find? (fun c => c.id == 1) = some (call 0) ∧ (call 0).seq = (s.seqr 511).expected 0 63 ∧ (call 0).seq < 65536 ∧
      (∀ y ∈ (s.seqr 511).held, ¬(y.field = 0 ∧ y.stream = 63 ∧ y.seq = 65535))) ∧
    (32768 ≤ ((call 0).seq + 65536 - ((channel (expecting 0)).seqr 511).expected 0 63) % 65536) ∧
    (let s := channel (expecting 65535);
      (s.seqr 511).held.find? (fun c => c.id == 1) = some (call 0) ∧ s.callReady (s.seqr 511) (call 0) = true ∧
      (s.turn (s.seqr 511) (call 0)).1 = .runs [] ∧ s.live 0 = true ∧ s.saved.find 0 = none) ∧
    (let s := channel { (expecting 65535) with withdrawn := true };
      s.callReady (s.seqr 511) (call 0) = true ∧ (s.seqr 511).withdrawn = true) ∧
    (let s := channel (runs 8 false);
      (s.seqr 511).running = some ⟨call 8, 255, 0, false, []⟩ ∧ 8 ≤ (call 8).entry ∧ (microWord (s.micro.rd 0 255)).reserved = false ∧
      (microWord (s.micro.rd 0 255)).bus = 0 ∧ (microWord (s.micro.rd 0 255)).next = 0) ∧
    (microWord (-1)).reserved = true ∧
    (let s := channel (runs 8 true); (s.seqr s.selPch).running = some ⟨call 8, 255, 0, true, []⟩ ∧ s.live 0 = true) ∧
    (let s := channel (runs 0 false); (call 0).entry = 0 ∧ (s.seqr s.selPch).session = none) ∧
    (let s := channel { (runs 1 false) with session := some session };
      (call 1).entry = 1 ∧ (s.seqr s.selPch).ownSession (call 1) = true ∧ (s.seqr s.selPch).session = some session ∧
      session.lastEnd = some 0 ∧ s.now < 0 + 200000 ∧ 0 + 200000 ≤ ({ s with now := 200000 }).now) := by decide +kernel

theorem witness_BankUnitCalls_entries :
    ((Instr.req4, 7) ∈ [(Instr.matvec16, 2), (.axpy32, 3), (.norm2, 4), (.optClip, 5), (.optTrust, 6), (.req4, 7)]) ∧
    up.runningOf 7 = none ∧
    (let s := channel (runs 7 false); s.runningOf 7 = some ⟨call 7, 255, 0, false, []⟩ ∧ (call 7).pch = s.selPch) ∧
    (let s := channel (runs 3 false); s.runningOf 3 = some ⟨call 3, 255, 0, false, []⟩) ∧
    (let s := channel { Seqr.idle with utags := [15 * 49152 + 49151] };
      (s.seqr 511).session = none ∧ (15#4).toNat * 49152 + 49151 ∈ (s.seqr 511).utags) ∧
    ((channel { Seqr.idle with session := some session }).seqr 511).session.isSome = true := by decide +kernel

theorem witness_TakingATrap :
    (4 * 0 + 1 ≠ 4 * 0 + 0) ∧ (sysProbe.ctx 0 0).sys = true ∧
    ((p0.ctx 0 0).sys = false ∧ (p0.ctx 0 0).rec0 = false ∧ delegated (p0.ctx 0 0) 9 = false) ∧
    delegated ((pc (fun c => { c with tdeleg := 2 ^ 25 })).ctx 0 0) 9 = true ∧ p0.trapDue 0 0 = false ∧
    (pc (fun c => { c with pending := [⟨0, 0, none, ⟨7, 1, 3, 0, 0⟩⟩] })).trapDue 0 0 = true ∧
    (pc (fun c => { c with uivec := 2 ^ 31 + 5, uistat := 1, litPaid := false })).uiReady 0 0 = true ∧ p0.uiReady 0 0 = false ∧
    p0.cc.sys = false ∧
    (let s := pc (fun c => { c with sys := true, rec0 := true, tinfo0 := 1 });
      s.cc.sys = true ∧ s.cc.guard yes = true ∧ chkTret yes s = none ∧
      badDesc s.cc.catchMem 0x400 (min 192 (s.cc.catchMem.num 0 4)) = none) := by decide +kernel

theorem witness_ARecordRestoresTheSequencer :
    (2 ^ 16 - 1 < 2 ^ 16) ∧ (2 < 2 ^ 8) ∧ (15 < 16) ∧
    (let c := { Ctx.idle with loops := List.replicate 6 ⟨65535, 65535, 2 ^ 32 - 1, 2 ^ 32 - 2⟩, dly := 2, dtgt := 65535, pline := some 511 };
      c.loops.length ≤ 6 ∧ (∀ e ∈ c.loops, e.start < 2 ^ 16 ∧ e.fin < 2 ^ 16 ∧ e.count < 2 ^ 32 ∧ e.index < 2 ^ 32) ∧
      c.dly < 2 ^ 8 ∧ c.dtgt < 2 ^ 16 ∧ c.pline.all (fun k => decide (k < 512)) = true) := by decide

/-- The probe about to run `add %s3, %s4, %s5`, and what the step calls its state at that bundle. -/
def adding : State := probe (inS 1 0 (3 * 2 ^ 48 + 4 * 2 ^ 43 + 5 * 2 ^ 37))
def begun (s : State) : State := (({ s with scan := 1 } : State).modTile 0 (fun x => { x with running := x.running.insert 0 0 })).begin 0 0

theorem witness_AStepRunsTheDecodedInstruction :
    (∃ x r, takeInput ({ p0 with inputs := [⟨0, [], [], [], none⟩] }).now ({ p0 with inputs := [⟨0, [], [], [], none⟩] }).inputs = some (x, r)) ∧
    (let s := p0.at none 0 phLand .emptyBundle; takeInput s.now s.inputs = none ∧ (s.dueEvent true).isSome = true) ∧
    (let s := { p0 with scan := 512 };
      takeInput s.now s.inputs = none ∧ (s.dueEvent true).isNone = true ∧ (s.nextTurn s.issuePlaces).isNone = true ∧ (s.dueEvent false).isNone = true) ∧
    (let s := ({ p0 with scan := 512 }).at none 0 phEngine .emptyBundle;
      (s.dueEvent true).isNone = true ∧ (s.nextTurn s.issuePlaces).isNone = true ∧ (s.dueEvent false).isSome = true) ∧
    (takeInput adding.now adding.inputs = none ∧ (adding.dueEvent true).isNone = true ∧
      (let c := adding.ctx 0 0;
        let u := ({ adding with scan := 1 } : State).modTile 0 (fun x => { x with running := x.running.insert 0 0 });
        (adding.field c.fieldNum).member = 0 ∧ u.wholeService 0 c = false ∧ c.back = false ∧ c.atBreakpoint = false ∧
        u.fetch 0 c = .bundle (inS 1 0 (3 * 2 ^ 48 + 4 * 2 ^ 43 + 5 * 2 ^ 37)) ∧
        (begun adding).cc.wholeTrap [⟨.s, containerOf (inS 1 0 (3 * 2 ^ 48 + 4 * 2 ^ 43 + 5 * 2 ^ 37)) .s, .ok (.addReg yes 3 4 5)⟩] = none ∧
        (run (.addReg yes 3 4 5) (begun adding)).cur.trap = none ∧
        capacityTrap (begun adding) (run (.addReg yes 3 4 5) (begun adding)) = none ∧
        (run (.bitc yes 3 4 63) (begun adding)).cur.trap = some ⟨1, 5, 5, 0, 0⟩ ∧ bitAt 0 15 = false)) :=
  ⟨⟨_, _, rfl⟩, by decide +kernel⟩

theorem witness_AStepRunsTheDecodedInstruction_turn :
    (adding.nextTurn adding.issuePlaces).any (fun x => decide (x.1 = 0) && (match x.2 with
      | .issue t h => decide (t = 0 ∧ h = 0)
      | _ => false)) = true := by decide +kernel

theorem witness_AStepRunsTheDecodedInstruction_decodes :
    decodeBundle (inS 1 0 (3 * 2 ^ 48 + 4 * 2 ^ 43 + 5 * 2 ^ 37)) = .ok [(.s, .ok (.addReg yes 3 4 5))] ∧ decodeBundle 0 = .ok [] ∧
    (match decodeBundle (2 ^ 381) with
      | .error _ => true
      | _ => false) = true := ⟨rfl, rfl, rfl⟩

theorem witness_SpecWordsDecode : fld (2 ^ 383) 381 3 ≠ 0 := by decide

theorem witness_DecodeOfEncode :
    (Instr.bitc ⟨true, 7⟩ 31 31 10).wf = true ∧ (encodeNat (.bitc ⟨true, 7⟩ 31 31 10)).isSome = true ∧
    (Instr.drain ⟨true, 7⟩ 63 63 15 47 1 2 true true (.start 0xFFFFF)).wf = true ∧
    (encodeNat (.drain ⟨true, 7⟩ 63 63 15 47 1 2 true true (.start 0xFFFFF))).isSome = true ∧
    encodeNat .powerOnReset = none ∧ Instr.powerOnReset ≠ Instr.emptyBundle := by decide +kernel

/-- R357: the manual's bundle of three slots, from its instructions. -/
theorem test_encode_manual_bundle :
    encodeBundle [.vadd ⟨true, ⟨false, 2⟩⟩ 5 (.queue true 1) (.src (.tile false 9)) 0 false, .addImm yes 3 4 16, .pf yes 2 7]
      = some (0x0580 * 2 ^ 368 + 0x0242D04120000000 * 2 ^ 176 + 0x0203240000000010 * 2 ^ 48 + 0x3021C0000000) := by decide +kernel

theorem witness_AStepKeepsTheLimits : State.reset.Bounded := by decide +kernel

theorem witness_ScratchpadAccesses_lines :
    p0.ct.unjoined = [] ∧ (p0.modCT (fun t => { t with unjoined := [⟨0, true, 0, List.replicate 16 7⟩] })).ct.unjoined ≠ [] ∧
    (let s := tiles 7 6; linesOf (s.cc.vreg 9) (s.cc.pline.getD 0) 512 = [] ++ (0, 0) :: (linesOf (s.cc.vreg 9) (s.cc.pline.getD 0) 512).tail ∧
      0 < typeBits (vType (s.cc.vreg 9))) := by decide +kernel

/-- In the service, with a drowsy window. -/
def drowsing : State := serving.modCC (fun c => { c with drowsy := true })

theorem witness_ImageCommandsAreAccepted_drowsy :
    drowsing.cc.guard yes = true ∧ chkImage yes 0x15 (some 0) 2 drowsing = none ∧ (drowsing.ctx drowsing.cur.tile 0).drowsy = true := by
  decide +kernel

/-- A fence of class K before class B, which captured one write of a copy that a slice still holds. -/
def fencing : State := issued (.fence yes 8 4 15) { p0 with
  dies := [(0, { Die.idle with late := [⟨0, 0, 7, 1, writerOf 0 0, 0⟩] })], nextId := 1 }

theorem witness_AsynchronousEventsComplete_fences :
    found fencing (fun c => c.fset.all (fun w => (fencing.cmd w).isNone) && c.flags.isEmpty) = true ∧
    hasB 4 = true ∧ hasC 4 = false ∧ hasC 8 = false ∧
    (theCmd fencing).any (fun c => !fencing.fenceHeld c 8) = true ∧
    (let s := { fencing with seqrs := [(0, { Seqr.idle with session := some ⟨0, 63, none, some 0, false⟩ })] };
      (theCmd s).any (fun c => s.fenceHeld c 8) = true) := by decide +kernel

theorem witness_MeshAndLinkEvents_beats :
    (let s := (run (.mrecv yes 1 (.tile 2) (.start 100)) (wired id)).modTile 0
        (fun t => { t with beats := [⟨0, 1, 100, 0, 1, List.replicate 128 5⟩] });
      (findE (s.tile 0).mesh 0).any (fun c => !c.meshPort.1 && decide (0 < beatsOf c.meshLen) && decide (c.views.length = 1) &&
        (((s.tile 0).beats.find? (fun b => b.field == (s.ctx 0 c.hw).fieldNum && b.port == c.meshPort.2 && b.at_ == c.t + 0)).isSome)) = true) ∧
    (let s := (run (.mrecv yes 1 (.lines 31) (.start 100)) (wired (fun c => c.putS .user 31 (2 ^ 16 * 9)))).modTile 0
        (fun t => { t with beats := [⟨0, 1, 100, 0, 2, List.replicate 128 5⟩] });
      (findE (s.tile 0).mesh 0).any (fun c => !c.meshPort.1 && decide (0 < beatsOf c.meshLen) && c.views.isEmpty &&
        (((s.tile 0).beats.find? (fun b => b.field == (s.ctx 0 c.hw).fieldNum && b.port == c.meshPort.2 && b.at_ == c.t + 0)).isSome)) = true) ∧
    (let s := run (.lrecv yes 1 3 15 (.start 100)) (wired (withDesc rawDesc));
      (findE (s.tile 0).link 0).any (fun c => !c.stopped && decide (s.cmdNow 0 c < maxNat (c.slots.map (fun y => y.start + y.n)) + 8)) = true ∧
      ((findE (({ s with now := 1000 } : State).tile 0).link 0).any (fun c => decide (maxNat (c.slots.map (fun y => y.start + y.n)) + 8 ≤ ({ s with now := 1000 } : State).cmdNow 0 c)) = true)) := by decide +kernel

/-- The package up, with every temperature sensor reading `deg` degrees. -/
def heated (deg : Int) : State := { up with pkg := { up.pkg with sensors := (List.range 18).map (fun k => (k, deg)) } }

theorem witness_TemperatureAndErrors_sensors :
    ((heated 100).pkg.powered = true ∧ (heated 100).pkg.temp < 100 ∧ (100 : Int) ≤ (heated 100).pkg.hottest ∧ (heated 100).pkg.hottest < 110) ∧
    ((heated 110).pkg.temp < 110 ∧ (110 : Int) ≤ (heated 110).pkg.hottest) ∧ (heated 94).pkg.hottest < 95 ∧
    ((95 : Int) ≤ (heated 99).pkg.hottest ∧ (heated 99).pkg.hottest < 100) ∧
    (let e : ErrSite := ⟨1, 255, 0, 0, false, (true, 255), none, 0⟩; e.cls = 1 ∧ up.fieldsOn (· == e.tile.toNat) = [] ∧ e.line.1 = true) ∧
    (let e : ErrSite := ⟨5, 255, 0, 0, true, (false, 0), none, 0⟩;
      let s := { up with pkg := { up.pkg with errs := [(21, 255, 0)] } };
      2 ≤ e.cls.toNat ∧ e.cls.toNat ≤ 6 ∧ s.fieldsOn (· == e.tile.toNat) = [] ∧ e.cls.toNat + 16 * b2n e.code = 21 ∧
      (s.pkg.errs.any fun x => x.1 == 21 && x.2.1 == 255 && decide (s.now < x.2.2 + hourCycles)) = true) := by decide +kernel

theorem witness_ColScorebookAndShutdown_windows :
    (up.torus.timed = true ∧ ∀ e ∈ up.seqrs, e.2.session = none) ∧
    (let y : Session := ⟨0, 63, none, some 0, false⟩;
      let s := { up with seqrs := [(0, { Seqr.idle with session := some y })] };
      s.torus.timed = true ∧ y.excess = false ∧ { y with excess := true }.excess = true ∧
      (s.col.charge s.now y.field 1 (windowOf s.global) 2).toOption = none ∧
      ({ s.col with grants := [⟨1, 0, 16, 0, 100, [], 0⟩] }.charge s.now y.field 1 (windowOf s.global) 2).toOption.isSome = true) := by
  decide +kernel

/-- What training finds on a port: 64 cycles, all lanes, and `roots` other packages with ROOT set, one at (1, 0, 0). -/
def report (cabled : Bool) (roots : Nat) : Training := ⟨64, 16, 0, 1, cabled, 3, 15, roots, 1⟩
/-- A package of a 2 × 2 × 2 torus that is not the root, in training, with a time flit received on the port towards the root. -/
def awaiting : State := { (wired id) with torus := { (wired id).torus with
  timed := false, training := true, root := false, rootAt := 1,
  ports := (List.range 6).map (fun p => (p, { Port.idle with up := true, trained := true, lat := 64, rx := some (400, [0xFFFE]) })) } }
/-- A sealed time flit, and a notice in the slot of one. -/
def timeFlit : List Byte := withSeal ([1, 0] ++ leBytes 6 400 ++ (List.range 11).flatMap (fun _ => leBytes 2 0xFFFE))

theorem witness_TorusEvents_more :
    ((3 ∈ (wired id).livePorts) ∧ (report true 1).ok = true ∧ (report true 1).cabled = true ∧
      (report true 1).roots + b2n (wired id).torus.root = 1 ∧ (report false 1).cabled = false ∧
      (report true 2).roots + b2n (wired id).torus.root ≠ 1) ∧
    (3 ∉ up.livePorts ∧ (⟨63, 16, 0, 0, true, 0, 0, 1, 0⟩ : Training).ok = false ∧ (⟨64, 13, 0, 0, true, 0, 0, 1, 0⟩ : Training).ok = false) ∧
    (awaiting.torus.timed = false ∧ awaiting.torus.training = true ∧ awaiting.torus.root = false ∧
      awaiting.timePort.any (fun k => decide ((awaiting.port k).rx = some (400, [0xFFFE]))) = true) ∧
    (linked.torus.timed = true ∧ (linked.port 5).up = true) ∧
    (sealed timeFlit = true ∧ sealed (List.replicate 64 1) = false ∧ ((wired id).port 3).up = true ∧ ((wired id).port 3).rx = none) ∧
    (let s := { linked with torus := { linked.torus with ports := [(5, { Port.idle with up := true, rx := some (0, [0xFFFE, 0x1234]) })] } };
      (s.port 5).up = true ∧ (s.port 5).rx = some (0, [0xFFFE, 0x1234]) ∧ ([0xFFFE, 0x1234] : List Nat)[2 - 1]? = some 0x1234 ∧
      0x1234 ≠ 0xFFFE) ∧
    noticeOf 5 (withSeal ([1, 0, 0, 0, 1, 0, 9, 0] ++ leBytes 8 64)) = some (.noticePlaced 5 (withSeal ([1, 0, 0, 0, 1, 0, 9, 0] ++ leBytes 8 64))) := by
  decide +kernel

theorem witness_QueuesAndRegisters_accesses :
    (up.bar0Writes = true ∧ (0x100000#26).toNat = 0x100000 ∧ (4#32).getLsbD 2 = true ∧ (8#32).getLsbD 2 = false) ∧
    ({ up.hport with sets := [(0x100000, 2)] }).sets.contains (0x100000, 2) = true ∧ (0x100002#26).toNat % 4 ≠ 0 ∧
    ((0x3FFFFF8#26).toNat % 8 = 0 ∧ (0x3FFFFFC#26).toNat % 4 = 0) ∧
    (accessOk 3 4 = false ∧ accessOk 4 8 = false ∧ accessOk 0 2 = false ∧ accessOk 0x3FFFFF8 8 = true) := by decide +kernel

/-- A target-0 FWLOAD of 128 bytes of the staging window, with a session open on the pseudo-channel of its first line. -/
def barred : State :=
  let s := started (pkt 10 0 (List.replicate 8 0 ++ leBytes 4 128))
  { s with hport := { s.hport with stgBase := .ofNat 64 tableWindow }, dies := [(0, imageDie)],
           seqrs := (List.range 128).map (fun k => (k, { Seqr.idle with session := some ⟨0, 63, none, some 0, false⟩ })) }

theorem witness_PacketsAndStaging_images :
    barred.hport.loading = none ∧ barred.imageWaits = true ∧ (started (pkt 10 0 [])).unitsBusy = false := by decide +kernel

/-- A BAR4 write that reaches the memory at once, and one that a translation holds back. -/
theorem witness_PacketsAndStaging_writes :
    (up.hport.stgWait = [] ∧ ∀ a ∈ (up.stageLines true 0x3FFFFFFC 4).1, (up.stageLines true 0x3FFFFFFC 4).2.1.get (a / 128) ≠ .busy) ∧
    (let s := { barred with hport := { barred.hport with stgBase := 0 } };
      s.bar0Writes = true ∧ s.hport.stgWait = [] ∧ ∃ a ∈ (s.stageLines true 0 4).1, (s.stageLines true 0 4).2.1.get (a / 128) = .busy) := by
  decide +kernel

theorem witness_BankUnitCalls_waits :
    (let s := channel (expecting 65535);
      (s.seqr 511).held.find? (fun c => c.id == 1) = some (call 0) ∧ s.callReady (s.seqr 511) (call 0) = true ∧
      (s.turn (s.seqr 511) (call 0)).1 ≠ .waits) ∧
    (let c : Call := { call 7 with sys := true, args := [0, 0, .ofNat 64 (3 * 2 ^ 48 + tableWindow), 1, 0, 0] };
      let s := { (channel Seqr.idle) with seqrs := (511, { (expecting 65535) with held := [c] }) :: (List.range 127).map (fun k =>
        (k + 384, { Seqr.idle with session := some session })) };
      (s.seqr 511).held.find? (fun c => c.id == 1) = some c ∧ s.callReady (s.seqr 511) c = true ∧
      (s.turn (s.seqr 511) c).1 = .waits) ∧
    (let r : RunCall := ⟨{ call 2 with args := [0, 0, 0, 16, 1, 0] }, 0, 0, false, [(0, 0)]⟩;
      let s := { (channel Seqr.idle) with seqrs := (511, { Seqr.idle with running := some r }) :: (List.range 127).map (fun k =>
        (k + 384, { Seqr.idle with session := some session })) };
      s.runningOf 2 = some r ∧ r.call.pch = s.selPch ∧ s.ctlBusy 511 r.ctlBytes = true) ∧
    (let s := channel (runs 7 false); (s.seqr 511).running = some ⟨call 7, 255, 0, false, []⟩ ∧ 2 ≤ (call 7).entry ∧ (call 7).entry < 8 ∧
      (call 7).pch = 511 ∧ s.ctlBusy 511 (⟨call 7, 255, 0, false, []⟩ : RunCall).ctlBytes = false) := by decide +kernel

/-- The probe with two results to land later, and with the same in an open record 0 whose return is at hand. -/
def catching : State := pc (fun c => { c with inflight := [⟨5, 9, 5, slS, 0x7F, .sreg .user 31 (-1)⟩, ⟨6, 3, 6, slS, 1, .sreg .user 3 7⟩] })
def returning : State := (catching.takeTrap 0 0 ⟨1, 5, 5, 0, 0⟩ ⟨0, 0, false, false, false⟩).modCtx 0 0 (fun c => { c with sys := false, back := true })

theorem witness_TakingATrap_records :
    (let c := catching.ctx 0 0;
      c.sys = false ∧ c.rec0 = false ∧ (c.inflight.filter (fun r => !r.stays catching.now)).length = 2 ∧
      (∀ r ∈ c.inflight, r.slot < 8) ∧
      sumNat ((c.inflight.filter (fun r => !r.stays catching.now)).map (fun r =>
        ((r.dest.caught c (catching.tile 0)).map (·.2.2.length)).getD 0)) ≤ 0xF000 ∧
      (c.inflight.map (fun r => r.dest.caught c (catching.tile 0))).all Option.isSome = true) ∧
    (let c := returning.ctx 0 0;
      c.back = true ∧ c.rec0 = true ∧ badDesc c.catchMem 0x400 (min 192 (c.catchMem.num 0 4)) = none ∧ min 192 (c.catchMem.num 0 4) = 2) ∧
    (let c := (pc (fun c => { c with softDue := some (4, 300, false) })).ctx 0 0;
      c.softNow p0.now = some (4, 300) ∧ c.pendingTrap p0.now = none ∧ c.trapsWait p0.now = false) ∧
    (pc (fun c => { c with softDue := some (4, 300, false) })).trapDue 0 0 = true ∧
    (let s := pc (fun c => { c with uivec := 2 ^ 31 + 5, uistat := 1, litPaid := false }); s.uiReady 0 0 = true ∧ (s.ctx 0 0).back = false) ∧
    (returning.trapDue 0 0 = false ∧ (pc (fun c => { c with back := true, pending := [⟨0, 0, none, ⟨7, 1, 3, 0, 0⟩⟩] })).trapDue 0 0 = true) := by
  decide +kernel

/-- R329: the descriptors of the two results that a trap catches, and what the return makes of them again. -/
theorem test_catch_and_return :
    (let m := ((catching.takeTrap 0 0 ⟨1, 5, 5, 0, 0⟩ ⟨0, 0, false, false, false⟩).ctx 0 0).catchMem;
      (m.num 0 4 = 2 ∧ (descAt m 0x400).kind = (descAt m 0x410).kind ∧ (descAt m 0x400).remain = 9 - catching.now ∧
        (descAt m 0x410).remain = 3 - catching.now ∧ m.bytes (descAt m 0x410).doff 8 = leBytes 8 7)) ∧
    ((returning.comeBack 0 0).ctx 0 0).inflight.map (fun r => (r.land, r.slot, r.dest)) =
      [(9, slS, .sreg .user 31 (-1)), (3, slS, .sreg .user 3 7)] := by decide +kernel

theorem witness_AStepRunsTheDecodedInstruction_first :
    ((p0.at none 0 phSets .emptyBundle).dueFirst).isSome = true ∧ p0.dueFirst = none ∧ adding.dueFirst = none := by decide +kernel

/-! ### Ill-formed terms: one for each check of WellFormed -/

def notWf (l : List Instr) : Bool := l.all (fun i => !i.wf)

theorem test_wf_package_events : notWf [
    .portTrainingDone 6 ⟨64, 16, 0, 0, true, 0, 0, 0, 0⟩, .portTrainingDone 0 ⟨63, 16, 0, 0, true, 0, 0, 0, 0⟩,
    .portTrainingDone 0 ⟨64, 13, 0, 0, true, 0, 0, 0, 0⟩, .timeFlitReceive 6 none 0, .timeFlitReceive 0 (some []) 0,
    .dataFlitReceive 7 ⟨1, 0⟩ none, .dataFlitReceive 0 ⟨0, 0⟩ none, .dataFlitReceive 0 ⟨12, 0⟩ none, .dataFlitReceive 0 ⟨1, 0⟩ (some [0]), .portRetrain 6, .noticePlaced 6 [],
    .noticePlaced 0 [], .noticeFreeze 0 [], .noticeResume 7 [], .noticeArrived 0 [0], .noticeDone 0 [],
    .hbmStandardAccess 0 0 49152 false none 0] = true := by decide

theorem test_wf_packet : Pkt.wf ⟨1024, 0, List.replicate 64 0, 0, false⟩ = false ∧ Pkt.wf ⟨0, 65536, List.replicate 64 0, 0, false⟩ = false ∧
    Pkt.wf ⟨0, 0, [], 0, false⟩ = false ∧ Pkt.wf ⟨1023, 65535, List.replicate 64 0, 0, false⟩ = true := by decide

theorem test_wf_scalar : notWf [
    .shlImm yes 0 0 64, .shrImm yes 0 0 64, .sraImm yes 0 0 (-1), .bitc yes 0 0 0x0B, .cmpReg yes 0 0xC 0 0, .cmpImm yes 0 0xF 0 0,
    .br yes 6 0 0, .lbrk yes 0, .lbrk yes 7, .pass yes 0 3, .pass yes 0 0, .pass yes 0 (4 * 2401), .pass yes 0 (4 + 2 ^ 20),
    .passCycleReg yes 0 0 0, .gets yes 0 0x00E, .gets yes 0 0x016, .gets yes 0 0x028, .gets yes 0 0x046, .gets yes 0 0x103,
    .setsReg yes 0x802 0, .setsImm yes 0x02F 0, .setsOr yes 0x0FF 0, .setsClr yes 0xFFF 0] = true := by decide

theorem test_wf_vector : notWf [
    .vadd v0 0 .held (.scalar 0) 3 false, .vsub v0 0 .held (.scalar 0) 3 false, .vmul v0 0 .held (.scalar 0) 3 false,
    .vfma v0 0 .held (.scalar 0) (.scalar 0) 3 false, .vdiv v1 0 .held (.scalar 0) 0 false, .vdiv v0 0 .held (.scalar 0) 3 false,
    .vsqrt v1 0 .held 0 false, .vsqrt v0 0 .held 3 false, .vrsq v1 0 .held 0 false, .vrsq v0 0 .held 3 false, .vexp2 v1 0 .held 0 false,
    .vexp2 v0 0 .held 3 false, .vlog2 v1 0 .held 0 false, .vlog2 v0 0 .held 3 false, .vcvt v0 0 .held 3 false, .vsplat v0 0 0 3 false,
    .vcmp v0 0 .held (.scalar 0) 7, .vmskPre v0 0 1025, .vmskRect v0 0 17 0, .vmskRect v0 0 0 65, .vrotr v0 0 .held (.imm 16),
    .vbcr v0 0 .held (.imm 16), .vshuf v1 0 .held .held, .vredr v0 0 .held 3 false 0 false, .vredr v0 0 .held 0 false 3 false,
    .vredc v0 0 .held 3 false 0 false, .vredc v0 0 .held 0 false 3 false, .vshpType v0 0 10 0 0, .vqlt v1 0 .held 0 0 false,
    .vqltOffsets v1 0 .held .held 0 0 false] = true := by decide

theorem test_wf_array : notWf [
    .wloadg yes 49 0 false 0 0 .now, .drain yes 0 0 0 48 0 0 false false .now, .drain yes 0 0 0 0 0 3 false false .now,
    .drain yes 0 0 0 0 2 0 false true .now, .aclr yes 1 63, .cbld yes 0 255 1 0] = true := by decide

theorem test_wf_memory : notWf [
    .lds yes 0 ⟨0, 1, true, false⟩ true 0 false 0 none, .lds yes 0 noEa false 0 false 1 none, .lds yes 0 noEa false 0 false 0 (some 0),
    .sts yes 0 ⟨0, 0, true, true⟩ true 0 0 none, .sts yes 0 noEa false 0 1 none, .tld yes 0 ⟨0, 0, true, true⟩ true 0 0 none false,
    .tld yes 0 noEa false 0 1 none false, .tld yes 0 noEa false 0 0 none true, .tst yes 0 ⟨0, 0, true, true⟩ true 0 0 none,
    .tst yes 0 noEa false 0 0 (some 1), .atom yes 0 ⟨0, 0, true, true⟩ false 0 0 0 0 none, .atom yes 0 noEa false 10 0 0 0 none,
    .atom yes 0 noEa false 0 0 1 0 none, .atomt yes 0 ⟨0, 0, true, true⟩ 0 0 0 none, .atomt yes 0 noEa 0 6 0 none,
    .hintReq yes ⟨0, 0, true, true⟩ 0 none, .hintFill yes ⟨0, 0, true, true⟩ 0 none, .hintDrop yes ⟨0, 0, true, true⟩ 0 none,
    .hintL2 yes ⟨0, 0, true, true⟩ 0 none, .bcall yes 0 27 0, .fence yes 0 1 0, .fence yes 1 0 0] = true := by decide

/-! ### Words that are no instruction (R356), and the words that the manual writes out -/

def refused (l : List Nat) : Bool := l.all (fun w => (decodeTableWord 384 w).isNone)

theorem test_decode_rejects :
    refused [inS 0 0 0, inS 0x23 0 0, inG 7 0 0, inV0 0x23 0 0, inA 0x0C 0 0, inM 0x17 0 0, inV1 7 0 0] = true ∧
    refused [inS 1 0 1, inS 0x22 0 1, inG 2 0 1, inV0 0x13 0 (2 ^ 18), inA 7 0 1, inM 0x13 0 1, inV0 1 0 (1 : Nat)] = true ∧
    refused [inV0 1 0 (0xC0 * 2 ^ 38), inV0 1 0 (0x48 * 2 ^ 38), inV0 1 0 (0x81 * 2 ^ 38), inV0 1 0 (0x180 * 2 ^ 38), inV0 1 0 (2 ^ 20),
      inV0 1 0 (2 ^ 16 + 0x20 * 2 ^ 29), inA 2 0 (2 ^ 52 + 2 ^ 51), inA 2 0 (2 ^ 51 + 2 ^ 36), inG 4 0 (3 * 2 ^ 33),
      inS 0x18 0 (3 * 2 ^ 32), inS 0x1B 0 (2 * 2 ^ 37), inM 8 0 (4 * 2 ^ 49)] = true ∧
    refused [2 ^ 381, 2 ^ 382, 2 ^ 383, 2 ^ 374, 2 ^ 368] = true := by decide +kernel

/-- R357, R378, R387, R405, R438, R446, R450, R461: the containers that the manual works out. -/
theorem test_decode_manual_examples :
    decodeTableWord 384 (2 ^ 378 + 0x0242D04120000000 * 2 ^ 176)
      = some (.vadd ⟨true, ⟨false, 2⟩⟩ 5 (.queue true 1) (.src (.tile false 9)) 0 false) ∧
    decodeTableWord 384 (2 ^ 376 + 0x0203240000000010 * 2 ^ 48) = some (.addImm yes 3 4 16) ∧
    decodeTableWord 384 (2 ^ 375 + 0x3021C0000000) = some (.pf yes 2 7) ∧
    decodeTableWord 384 (2 ^ 376 + 0x1E08438000000064 * 2 ^ 48) = some (.cmpImm yes 2 2 3 0x64) ∧
    decodeTableWord 384 (2 ^ 376 + 0x3000003000000000 * 2 ^ 48) = some (.waitImm yes 3 0) ∧
    decodeTableWord 384 (2 ^ 375 + 0x201260010000) = some (.acfgMod yes 2 6 16) ∧
    decodeTableWord 384 (2 ^ 379 + 0x0801900080230000 * 2 ^ 240)
      = some (.vfma v0 3 (.queue false 0) (.scalar 4) (.src (.tile false 2)) 0 true) ∧
    decodeTableWord 384 (2 ^ 380 + 0x0800020021454020 * 2 ^ 304) = some (.stream yes 8 (some 20) (some 21) none (.start 0x400)) ∧
    decodeTableWord 384 (2 ^ 380 + 0x0C1000003C022080 * 2 ^ 304) = some (.drain yes 30 0 4 16 1 0 false false .now) ∧
    decodeTableWord 384 (2 ^ 377 + 0x060608597A680000 * 2 ^ 112)
      = some (.tld yes 12 ⟨2, 1, false, true⟩ true 5 14 (some 13) false) := by decide +kernel

/-- R178, R339, R357: the three slots of that bundle, in slot order. -/
theorem test_decode_manual_bundle :
    decodeBundle (0x0580 * 2 ^ 368 + 0x0242D04120000000 * 2 ^ 176 + 0x0203240000000010 * 2 ^ 48 + 0x3021C0000000)
      = .ok [(.v1, .ok (.vadd ⟨true, ⟨false, 2⟩⟩ 5 (.queue true 1) (.src (.tile false 9)) 0 false)), (.s, .ok (.addImm yes 3 4 16)),
        (.g, .ok (.pf yes 2 7))] := by
  have e : decodeBundle (0x0580 * 2 ^ 368 + 0x0242D04120000000 * 2 ^ 176 + 0x0203240000000010 * 2 ^ 48 + 0x3021C0000000) = .ok _ := rfl
  exact e

/-! ## Values that the manual works out -/

/-- R216: FP32 to BF16 at two ties, at the largest finite value, and under sat. -/
theorem test_bf16_rounding :
    bf16.round false (fp32.value 0x3F808000) = (0x3F80, flNX) ∧ bf16.round false (fp32.value 0x3F818000) = (0x3F82, flNX) ∧
    bf16.round false (fp32.value 0x7F7FFFFF) = (0x7F80, flOF ||| flNX) ∧
    bf16.round true (fp32.value 0x7F7FFFFF) = (0x7F7F, flOF ||| flNX) := by decide +kernel

/-- R237: the first draw of sround. -/
theorem test_sround_draw : lfsrStep 1 = 0x80200003 := by decide

/-- R206: the start cycle of a command issued at 0x2FFFF0. -/
theorem test_start_cycle : startCycle 0x2FFFF0 0x00010 = 0x300010 ∧ startCycle 0x2FFFF0 0xFFFE0 = 0x2FFFE0 := by decide

/-- R240: two drained values. -/
theorem test_drain_values :
    drainValue 98304 16 (some 0x3F80) 0 false = (0x3FC00000, 0) ∧
    (drainValue 0x7FFFFFFFFFFF 0 none 2 false).1 = 0x7FFFFFFF ∧
    (drainValue 0x7FFFFFFFFFFF 0 none 2 false).2.getLsbD 5 = true := by decide +kernel

/-- R248: the contribution of a cell, the same with weight sign 1, and one whose shift sets the range flag. -/
theorem test_cell_contributions :
    cellRule (-9) 4 false = (7, false) ∧ cellRule (-9) 4 true = (-7, false) ∧
    cellRule 64 40 false = (2 ^ 48, true) ∧ accAdd 5 (2 ^ 48) true = 2 ^ 48 + 5 := by decide +kernel

/-- R269: swizzled offset 200,000 is the linear offset 200,544. -/
theorem test_swizzled_line : 16 * swizzledLine (200000 / 16) = 200544 := by decide

/-- R281, R282: the encodings of five lines, with their sectors. -/
theorem test_line_encodings :
    encodeLine (List.replicate 128 0) = (0, []) ∧
    encodeLine ((List.range 32).flatMap (fun _ => leBytes 4 0x3F800000)) = (1, leBytes 4 0x3F800000 ++ List.replicate 28 0) ∧
    (let shape (bs : List Byte) : Nat × Nat := ((encodeLine bs).1, (encodeLine bs).2.length / 32);
      shape ((List.range 32).flatMap (fun k => leBytes 4 (1000 + k))) = (3, 2) ∧
      shape ((List.range 16).flatMap (fun k => leBytes 8 (0x100000000 + k))) = (2, 1) ∧
      shape ((List.range 32).flatMap (fun k => leBytes 4 (300 * k))) = (5, 3)) := by decide +kernel

/-- R74, R288: the place of one byte. -/
theorem test_byte_place :
    vPkg 0x000D000080401234 = 3 ∧ vDie 0x000D000080401234 = 1 ∧ vOff 0x000D000080401234 = 0x80401234 ∧
    pchOf 1 0xC80601234 = 195 ∧ rowOf 0xC80601234 = 2048 ∧ bankOf 0xC80601234 = 1 := by decide

/-- The addresses an address register takes, from first to last. -/
def walkOf (c : ACfg) : Nat → W32 → List W32
  | 0, _ => []
  | n + 1, a => a :: walkOf c n (postInc c a)

/-- R405: the circular and the bit-reversed walk. -/
theorem test_address_walks :
    walkOf ⟨1, 16, 0x1000, 48, 0, 0⟩ 4 0x1000 = [0x1000, 0x1010, 0x1020, 0x1000] ∧
    walkOf ⟨2, 1, 0, 0, 3, 2⟩ 9 0x2000
      = [0x2000, 0x2010, 0x2008, 0x2018, 0x2004, 0x2014, 0x200C, 0x201C, 0x2000] := by decide

/-- R89: the micro-word of MATVEC16's first step. -/
theorem test_micro_word :
    let m := microWord 0x47F07010000000005190840000000000
    m.bus = 4 ∧ m.cnt = 15 ∧ m.areg = 7 ∧ m.ireg = 7 ∧ m.imm = 16 ∧ m.uop = 5 ∧ m.dst = 1 ∧ m.srca = 9 ∧ m.srcb = 0 ∧
    m.bcb = true ∧ m.linc = true ∧ m.reserved = false := by decide

/-- R87: the reciprocal root in the worked OPT.CLIP block. -/
theorem test_rsq_rounds :
    (fp32.round false (fp32.value 0x3FC80000).rsq.1).1 = 0x3F4CCCCD ∧
    (fp32.round false (fp32.value 0x3E100000).rsq.1).1 = 0x402AAAAB := by decide +kernel

/-! ## One step at a time -/

/-- R375: a sum wraps at 64 bits. -/
theorem test_add_wraps :
    ((run (.addImm yes 3 4 1) (ps 4 0xFFFFFFFFFFFFFFFF)).cc.inflight.map (·.dest)) = [.sreg .user 3 0] := by decide +kernel

/-- R387: an instruction whose guard is false changes nothing. -/
theorem test_false_guard : (run (.addImm no 3 4 1) p0).cc.inflight = [] := by decide +kernel

end Sys2Proof.Tests
end

section
/-! PROOFS. The host's packets and the staging aperture (04_host.md): what memory accesses leave alone, what the completion of a packet
does, what the mailbox shows, and the statement that rests on them. -/

namespace Sys2Proof.Machine.HostPackets

open Sys2Proof Sys2Proof.Machine

/-! ## What an access to global memory leaves alone

Translations, reads and writes of lines move dies, sequencers, free draws, bytes on their way, and what the package sends; nothing
else of the state. -/

/-- From `s` to `t` only memory has moved: the dies, the sequencers, free draws, bytes on their way and sent. -/
def OnlyMemory (s t : State) : Prop :=
  ∃ dies seqrs draw inputs out,
    t = { s with dies := dies, seqrs := seqrs, draw := draw, inputs := inputs, out := out }

namespace OnlyMemory

theorem refl (s : State) : OnlyMemory s s := ⟨_, _, _, _, _, rfl⟩

theorem trans {s t u : State} (hst : OnlyMemory s t) (htu : OnlyMemory t u) : OnlyMemory s u := by
  obtain ⟨_, _, _, _, _, rfl⟩ := hst
  obtain ⟨_, _, _, _, _, rfl⟩ := htu
  exact ⟨_, _, _, _, _, rfl⟩

/-- A loop of such steps is one. -/
theorem foldl {α : Type} {f : State → α → State} (h : ∀ s a, OnlyMemory s (f s a)) (l : List α) (s : State) :
    OnlyMemory s (l.foldl f s) := by
  induction l generalizing s with
  | nil => exact refl s
  | cons a l ih => exact (h s a).trans (ih _)

variable {s t : State}

theorem now (h : OnlyMemory s t) : t.now = s.now := by obtain ⟨_, _, _, _, _, rfl⟩ := h; rfl
theorem ctxs (h : OnlyMemory s t) : t.ctxs = s.ctxs := by obtain ⟨_, _, _, _, _, rfl⟩ := h; rfl
theorem hport (h : OnlyMemory s t) : t.hport = s.hport := by obtain ⟨_, _, _, _, _, rfl⟩ := h; rfl
theorem pkt (h : OnlyMemory s t) : t.pkt = s.pkt := by obtain ⟨_, _, _, _, _, rfl⟩ := h; rfl

end OnlyMemory

theorem onlyMemory_drawFree (s : State) : OnlyMemory s s.drawFree.2 := ⟨_, _, _, _, _, rfl⟩
theorem onlyMemory_modDie (s : State) (d : Nat) (f : Die → Die) : OnlyMemory s (s.modDie d f) := ⟨_, _, _, _, _, rfl⟩
theorem onlyMemory_modSeqr (s : State) (p : Nat) (f : Seqr → Seqr) : OnlyMemory s (s.modSeqr p f) := ⟨_, _, _, _, _, rfl⟩
theorem onlyMemory_emit (s : State) (o : Out) : OnlyMemory s (s.emit o) := ⟨_, _, _, _, _, rfl⟩
theorem onlyMemory_arriveLater (s : State) (x : Inbound) : OnlyMemory s (s.arriveLater x) := ⟨_, _, _, _, _, rfl⟩

theorem onlyMemory_clearU (s : State) (die ln : Nat) (through : Bool) : OnlyMemory s (s.clearU die ln through) := by
  unfold State.clearU
  dsimp only
  split
  · exact .refl s
  · exact onlyMemory_modSeqr ..

theorem onlyMemory_fate (s : State) : OnlyMemory s s.fate.2 := onlyMemory_drawFree s

theorem onlyMemory_tlbTake (s : State) (die : Nat) (e : TlbEntry) : OnlyMemory s (s.tlbTake die e) := by
  unfold State.tlbTake
  split
  · exact .refl s
  · split
    · exact onlyMemory_modDie ..
    · exact (onlyMemory_drawFree s).trans (onlyMemory_modDie ..)

theorem onlyMemory_tableEntry (s : State) (pass : Nat → Bool) (die off level table : Nat) :
    OnlyMemory s (s.tableEntry pass die off level table).2 := by
  have drawn : ∀ n : Nat, OnlyMemory s (if n ≤ 1 then (0, s) else s.drawFree).2 := fun n => by
    split
    · exact .refl s
    · exact onlyMemory_drawFree s
  unfold State.tableEntry
  split
  extract_lets p fresh mine held busy choice
  split
  next k t e =>
    have ht : OnlyMemory s t := by simpa only [e] using drawn choice.length
    split
    · exact ht
    · refine ht.trans (.trans ?_ (onlyMemory_tlbTake ..))
      split
      · exact .refl t
      · exact onlyMemory_clearU ..

theorem onlyMemory_walkFrom (pass : Nat → Bool) (die off level : Nat) (s : State) (table : Nat) :
    OnlyMemory s (s.walkFrom pass die off level table).2 := by
  induction level generalizing s table with
  | zero =>
    have h := onlyMemory_tableEntry s pass die off 0 table
    unfold State.walkFrom
    split <;> next e => simpa only [e] using h
  | succ level ih =>
    have h := onlyMemory_tableEntry s pass die off (level + 1) table
    unfold State.walkFrom
    split
    next t e => simpa only [e] using h
    next v t e =>
      have ht : OnlyMemory s t := by simpa only [e] using h
      dsimp only
      split
      · exact ht
      · split
        · exact ht
        · split
          · exact ht
          · exact ht.trans (ih ..)

theorem onlyMemory_translate (s : State) (who : Who) (write : Bool) (a : Nat) (pass : Nat → Bool) :
    OnlyMemory s (s.translate who write a pass).2 := by
  have h := onlyMemory_walkFrom pass (vDie a) (vOff a) 3 s 0
  unfold State.translate State.lookup
  dsimp only
  split
  · exact .refl s
  · split
    · exact .refl s
    · split
      · exact .refl s
      · split
        · exact .refl s
        · split <;> next e => simpa only [e] using h

theorem onlyMemory_xlLines (who : Who) (write : Bool) (lines : List Nat) (s : State) :
    OnlyMemory s (s.xlLines who write lines).2 := by
  induction lines generalizing s with
  | nil => exact .refl s
  | cons l ls ih =>
    unfold State.xlLines
    refine .trans ?_ (ih _)
    refine (onlyMemory_translate s who write (128 * l) noPass).trans ?_
    generalize s.translate who write (128 * l) = r
    obtain ⟨x, t⟩ := r
    cases x with
    | home d p w u bs =>
      dsimp only
      split
      · exact .refl t
      · exact onlyMemory_clearU ..
    | remote =>
      cases write with
      | false => exact .refl t
      | true => exact onlyMemory_fate t
    | viol => exact .refl t
    | absent => exact .refl t
    | busy => exact .refl t

theorem onlyMemory_makeRoom (die ln n fuel : Nat) (s : State) : OnlyMemory s (s.makeRoom die ln n fuel) := by
  induction fuel generalizing s with
  | zero => exact .refl s
  | succ fuel ih =>
    unfold State.makeRoom
    split
    · exact .refl s
    · refine (onlyMemory_drawFree s).trans ?_
      dsimp only
      split
      · exact .refl _
      · refine .trans ?_ (ih _)
        exact (OnlyMemory.foldl (fun s l => onlyMemory_clearU s die l true) _ _).trans (onlyMemory_modDie ..)

theorem onlyMemory_l2Put (s : State) (die ln : Nat) (bs : List Byte) (dirty : Bool) :
    OnlyMemory s (s.l2Put die ln bs dirty).2 := by
  have h := onlyMemory_makeRoom die ln (sectorsOf (encodeLine bs).1) (s.die die).l2.length s
  unfold State.l2Put
  dsimp only
  split
  · dsimp only
    exact h.trans (onlyMemory_modDie ..)
  · exact h

theorem onlyMemory_lineWrite (s : State) (die ln : Nat) (striped : Bool) (cls : Nat) (cells : List (Nat × Byte × Nat × Nat)) :
    OnlyMemory s (s.lineWrite die ln striped cls cells) := by
  unfold State.lineWrite
  dsimp only
  refine .trans ?_ (onlyMemory_modDie ..)
  split
  · exact .refl s
  · dsimp only
    split
    · exact (onlyMemory_clearU ..).trans (onlyMemory_l2Put ..)
    · exact (((onlyMemory_clearU ..).trans (onlyMemory_l2Put ..)).trans (onlyMemory_clearU ..)).trans (onlyMemory_modDie ..)

theorem onlyMemory_kWrite (s : State) (l : Lines) (cls writer seq : Nat) (cells : List (Nat × Byte)) :
    OnlyMemory s (s.kWrite l cls writer seq cells) := by
  refine OnlyMemory.foldl (fun s e => ?_) l s
  dsimp only
  split
  · exact onlyMemory_lineWrite ..
  · exact onlyMemory_emit ..
  · exact onlyMemory_arriveLater ..
  · exact .refl s

theorem onlyMemory_stageLines (s : State) (write : Bool) (o n : Nat) : OnlyMemory s (s.stageLines write o n).2.2 :=
  onlyMemory_xlLines ..

theorem onlyMemory_staged (s : State) (o n : Nat) : OnlyMemory s (s.staged o n).2 :=
  (onlyMemory_stageLines s false o n).trans (onlyMemory_drawFree _)

/-! ## Packets that complete (R114, R118, R122) -/

theorem queue_modQueue (s : State) (q : Nat) (f : Queue → Queue) (k : Nat) :
    (s.modQueue q f).queue k = if k = q then f (s.queue q) else s.queue k :=
  Table.rd_wr ..

/-- A message is sent, or stays pending: of the rest of the state only what the package sends can move. -/
theorem msix_cases (s : State) (v : Nat) :
    (s.hport.masked v = true ∧ s.msix v = { s with hport := { s.hport with pba := s.hport.pba.wr false v true } }) ∨
    (s.hport.masked v = false ∧ s.msix v = s.emit (.msix v)) := by
  unfold State.msix
  cases h : s.hport.masked v
  · exact .inr ⟨rfl, rfl⟩
  · exact .inl ⟨rfl, rfl⟩

theorem msix_frame (s : State) (v : Nat) :
    ∃ pba out, s.msix v = { s with hport := { s.hport with pba := pba }, out := out } := by
  obtain ⟨-, e⟩ | ⟨-, e⟩ := msix_cases s v
  · exact ⟨_, s.out, e⟩
  · exact ⟨s.hport.pba, _, e⟩

/-- A packet that is not among its queue's started ones completes nothing. -/
theorem packetDone_of_not_started {s : State} {q id : Nat} (h : (s.queue q).started.find? (fun p => p.id == id) = none) :
    s.packetDone q id = s := by
  simp only [State.packetDone, h]

/-- A started packet has left its queue; the host has not heard of it yet. -/
def leave (s : State) (q id : Nat) : State := s.modQueue q (fun x => { x with started := x.started.filter (fun y => y.id != id) })

theorem started_leave (s : State) (q id : Nat) :
    ((leave s q id).queue q).started = (s.queue q).started.filter (fun y => y.id != id) :=
  congrArg Queue.started ((queue_modQueue s q _ q).trans (if_pos rfl))

/-- With NOTIFY clear a completed packet leaves its queue, whose next packet may start. -/
theorem packetDone_of_quiet {s : State} {q id : Nat} {a : Pkt} (h : (s.queue q).started.find? (fun p => p.id == id) = some a)
    (hn : pktNotify a = false) : s.packetDone q id = (leave s q id).at none s.now phDevice (.packetStart (.ofNat 10 q)) := by
  simp only [State.packetDone, h, hn, Bool.false_eq_true, if_false]
  rfl

/-- With NOTIFY set its vector is signalled too. -/
theorem packetDone_of_notify {s : State} {q id : Nat} {a : Pkt} (h : (s.queue q).started.find? (fun p => p.id == id) = some a)
    (hn : pktNotify a = true) :
    s.packetDone q id = ((leave s q id).msix (4 + q % 28)).at none s.now phDevice (.packetStart (.ofNat 10 q)) := by
  obtain ⟨_, _, e⟩ := msix_frame (leave s q id) (4 + q % 28)
  have now : ((leave s q id).msix (4 + q % 28)).now = s.now := by rw [e]; rfl
  simp only [State.packetDone, h, hn, if_true]
  rw [← now]
  rfl

/-- A completion, of whatever packet, moves only the queues, pending messages, what is sent and what is due. -/
theorem packetDone_frame (s : State) (q id : Nat) :
    ∃ queues pba agenda nextId out, s.packetDone q id =
      { s with hport := { s.hport with queues := queues, pba := pba }, agenda := agenda, nextId := nextId, out := out } := by
  cases h : (s.queue q).started.find? (fun p => p.id == id) with
  | none => exact ⟨_, _, _, _, _, packetDone_of_not_started h⟩
  | some a =>
    cases hn : pktNotify a with
    | false => exact ⟨_, s.hport.pba, _, _, s.out, packetDone_of_quiet h hn⟩
    | true =>
      obtain ⟨pba, out, e⟩ := msix_frame (leave s q id) (4 + q % 28)
      rw [packetDone_of_notify h hn, e]
      exact ⟨_, pba, _, _, out, rfl⟩

theorem ctxs_packetDone (s : State) (q id : Nat) : (s.packetDone q id).ctxs = s.ctxs := by
  obtain ⟨_, _, _, _, _, e⟩ := packetDone_frame s q id
  rw [e]

theorem fields_packetDone (s : State) (q id : Nat) : (s.packetDone q id).fields = s.fields := by
  obtain ⟨_, _, _, _, _, e⟩ := packetDone_frame s q id
  rw [e]

theorem started_packetDone {s : State} {q id : Nat} {a : Pkt} (h : (s.queue q).started.find? (fun p => p.id == id) = some a) :
    ((s.packetDone q id).queue q).started = (s.queue q).started.filter (fun y => y.id != id) := by
  rw [← started_leave]
  cases hn : pktNotify a with
  | false => rw [packetDone_of_quiet h hn]; rfl
  | true =>
    obtain ⟨_, _, e⟩ := msix_frame (leave s q id) (4 + q % 28)
    rw [packetDone_of_notify h hn, e]
    rfl

theorem out_packetDone_of_quiet {s : State} {q id : Nat} {a : Pkt} (h : (s.queue q).started.find? (fun p => p.id == id) = some a)
    (hn : pktNotify a = false) : (s.packetDone q id).out = s.out := by
  rw [packetDone_of_quiet h hn]
  rfl

theorem msix_mem_out_packetDone {s : State} {q id : Nat} {a : Pkt}
    (h : (s.queue q).started.find? (fun p => p.id == id) = some a) (hn : pktNotify a = true)
    (hm : s.hport.masked (4 + q % 28) = false) : Out.msix (4 + q % 28) ∈ (s.packetDone q id).out := by
  obtain ⟨hm', -⟩ | ⟨-, e⟩ := msix_cases (leave s q id) (4 + q % 28)
  · exact absurd (hm.symm.trans hm') Bool.false_ne_true
  · rw [packetDone_of_notify h hn, e]
    exact List.mem_append_right _ (List.mem_singleton.mpr rfl)

/-! ## Starting packets (R118, R122) -/

theorem execPacketStart_of_none {q : BitVec 10} {s : State} (h : s.mayStart q.toNat = none) : execPacketStart q s = .next s := by
  simp only [execPacketStart, h]

theorem execPacketStart_of_some {q : BitVec 10} {s : State} {a : Pkt} (h : s.mayStart q.toNat = some a) :
    ∃ t, execPacketStart q s = .next t ∧ t.pkt = a ∧ (t.queue q.toNat).taken = (s.queue q.toNat).taken.tail ∧
      (t.queue q.toNat).started = (s.queue q.toNat).started ++ [a] ∧ ∃ d ∈ t.agenda, d.ev = packetEvent a ∧ d.at_ = s.now := by
  have moved := queue_modQueue s q.toNat (fun x => { x with taken := x.taken.tail, started := x.started ++ [a] }) q.toNat
  rw [if_pos rfl] at moved
  simp only [execPacketStart, h]
  exact ⟨_, rfl, rfl, congrArg Queue.taken moved, congrArg Queue.started moved, _, .tail _ (.head _), rfl, rfl⟩

/-! ## Event packets and PAIR (R122, R126, R157) -/

theorem pkt_setEv (s : State) (e : Nat) (v : W32) : (s.setEv e v).pkt = s.pkt := by
  unfold State.setEv
  split <;> rfl

theorem pkt_evAdd (s : State) (e n : Nat) : (s.evAdd e n).pkt = s.pkt := by
  unfold State.evAdd
  split <;> rfl

theorem execEventSetWrite_eq (s : State) :
    execEventSetWrite s = .next ((s.setEv (s.pkt.num 4 2) (.ofNat 32 (s.pkt.num 8 4))).packetDone s.pkt.q s.pkt.id) := by
  rw [execEventSetWrite, State.pktDone, pkt_setEv]

theorem execEventSetAdd_eq (s : State) :
    execEventSetAdd s = .next ((s.evAdd (s.pkt.num 4 2) (s.pkt.num 8 4)).packetDone s.pkt.q s.pkt.id) := by
  rw [execEventSetAdd, State.pktDone, pkt_evAdd]

theorem execEventWaitMet_of_one {s : State} {a : Pkt}
    (h : s.startedWhere (fun y => pktType y == 7 && s.waitHolds y) = [a]) :
    execEventWaitMet s = .next (s.packetDone a.q a.id) := by
  rw [execEventWaitMet, h, List.foldl_cons, List.foldl_nil]

theorem execFencePacket_of_one {s : State} {a : Pkt} (h : s.readyFences = [a]) :
    execFencePacket s = .next (s.packetDone a.q a.id) := by
  rw [execFencePacket, h, List.foldl_cons, List.foldl_nil]

theorem execPair_of_ungrouped {s : State} (ha : s.grouped (s.pkt.num 4 2) = false) (hb : s.grouped (s.pkt.num 6 2) = false) :
    execPair s =
      .next (State.packetDone { s with groups := s.groups ++ [(s.pkt.num 4 2, s.pkt.num 6 2)] } s.pkt.q s.pkt.id) := by
  simp only [execPair, State.pktDone, State.recordPair, ha, hb, Bool.or_self, Bool.false_eq_true, if_false]

/-! ## COPY (R127) -/

theorem leNat_lt (bs : List Byte) : leNat bs < 256 ^ bs.length := by
  induction bs with
  | nil => exact Nat.one_pos
  | cons b bs ih =>
    have hb := b.isLt
    rw [leNat, List.length_cons, Nat.pow_succ]
    omega

theorem bytesAt_length (bs : List Byte) (a n : Nat) : (bytesAt bs a n).length = n := by
  simp only [bytesAt, List.length_append, List.length_take, List.length_replicate]
  omega

/-- A packet's field of n bytes is below 256^n. -/
theorem num_lt (p : Pkt) (a n : Nat) : p.num a n < 256 ^ n := by
  have h := leNat_lt (bytesAt p.bytes a n)
  rwa [bytesAt_length] at h

theorem execCopy_queues (s : State) :
    ∃ t c, execCopy s = .next t ∧ t.cmds = s.cmds ++ [c] ∧ c.ins = .copy ∧ c.shape.total = s.pkt.num 24 4 ∧
      c.val 9 = s.pkt.q % 2 ^ 64 ∧ c.val 10 = s.pkt.seq % 2 ^ 64 ∧ c.val 11 = s.pkt.num 4 2 ∧ c.val 12 = s.pkt.id % 2 ^ 64 ∧
      t.ctxs = s.ctxs := by
  have hn : s.pkt.num 24 4 % 2 ^ 64 = s.pkt.num 24 4 := Nat.mod_eq_of_lt (Nat.lt_trans (num_lt s.pkt 24 4) (by decide))
  have he : s.pkt.num 4 2 % 2 ^ 64 = s.pkt.num 4 2 := Nat.mod_eq_of_lt (Nat.lt_trans (num_lt s.pkt 4 2) (by decide))
  refine ⟨_, _, rfl, rfl, rfl, ?_, rfl, rfl, he, rfl, rfl⟩
  calc _ = s.pkt.num 24 4 % 2 ^ 64 * 1 * 1 := rfl
    _ = s.pkt.num 24 4 := by rw [Nat.mul_one, Nat.mul_one, hn]

theorem execCopyComplete_of_gone {id : Nat} {remote : Table Byte} {s : State} (h : s.cmd id = none) :
    execCopyComplete id remote s = .next s := by
  simp only [execCopyComplete, h]

theorem execCopyComplete_of_finished {id : Nat} {remote : Table Byte} {s : State} {c : Cmd} (h : s.cmd id = some c)
    (hi : c.ins = .copy) (hs : s.hport.shutdown = false) (hp : c.shape.total ≤ 128 * c.prog) (hl : c.lowest = none) :
    execCopyComplete id remote s = .next (((s.dropCmd id).evAdd (c.val 11) 1).packetDone (c.val 9) (c.val 12)) := by
  simp only [execCopyComplete, h, hi, hs, hl, if_pos hp, bne_self_eq_false, Bool.false_eq_true, if_false]

/-! ## The mailbox (R125, R133 to R135) -/

/-- FWLOAD or QUERY has been served: BUSY is set, the buffer is clear, an answer for the packet is ready, and its DONE is due. -/
def Answers (s t : State) : Prop :=
  t.hport.mbBusy = true ∧ t.hport.mbBuf = [] ∧ t.ctxs = s.ctxs ∧ (∃ r a, t.hport.mbNext = some (r, a, s.pkt)) ∧
    ∃ d ∈ t.agenda, d.ev = .mailboxDone

theorem answers_later {s u : State} (hc : u.ctxs = s.ctxs) (hp : u.pkt = s.pkt) (r : Nat) (a : List Byte) (seq wait : Nat) :
    Answers s ((u.mailbox r a).later seq wait .mailboxDone) :=
  ⟨rfl, rfl, hc, ⟨r, a, by rw [← hp]; rfl⟩, _, .head _, rfl⟩

theorem answers_within {s u : State} (hc : u.ctxs = s.ctxs) (hp : u.pkt = s.pkt) (r : Nat) (a : List Byte) (bound : Nat) :
    Answers s ((u.mailbox r a).within bound .mailboxDone) :=
  ⟨rfl, rfl, hc, ⟨r, a, by rw [← hp]; rfl⟩, _, .head _, rfl⟩

theorem fwPkt_of_not_loading {s : State} (h : s.hport.loading = none) : s.fwPkt = s := by
  simp only [State.fwPkt, h, Option.getD_none]

theorem execFwloadDevice_answers {s : State} (hl : s.hport.loading = none) (hw : s.imageWaits = false) :
    ∃ t, execFwloadDevice s = .next t ∧ Answers s t := by
  have read := onlyMemory_staged s (s.pkt.num 8 4) (s.pkt.num 12 4)
  simp only [execFwloadDevice, fwPkt_of_not_loading hl, hw, Bool.false_eq_true, if_false]
  refine ⟨_, rfl, answers_later ?_ ?_ ..⟩
  · split <;> exact read.ctxs
  · split <;> exact read.pkt

theorem execFwloadBankUnit_of_busy {s : State} (hl : s.hport.loading = none) (hb : s.unitsBusy = true) :
    execFwloadBankUnit s = .next ((s.mailbox 4 []).later s.nextId 1 .mailboxDone) := by
  simp only [execFwloadBankUnit, fwPkt_of_not_loading hl, hl, hb, Option.isNone_none, Bool.and_self, if_true]

theorem ctxs_loadUnits (s : State) (bs : List Byte) : (s.loadUnits bs).ctxs = s.ctxs := rfl
theorem pkt_loadUnits (s : State) (bs : List Byte) : (s.loadUnits bs).pkt = s.pkt := rfl

theorem execFwloadBankUnit_answers {s : State} (hl : s.hport.loading = none) (hw : s.imageWaits = false) :
    ∃ t, execFwloadBankUnit s = .next t ∧ Answers s t := by
  cases hb : s.unitsBusy with
  | true => exact ⟨_, execFwloadBankUnit_of_busy hl hb, answers_later rfl rfl ..⟩
  | false =>
    have read := onlyMemory_staged s (s.pkt.num 8 4) (s.pkt.num 12 4)
    simp only [execFwloadBankUnit, fwPkt_of_not_loading hl, hl, hb, hw, Bool.and_false, Bool.false_eq_true, if_false]
    refine ⟨_, rfl, answers_within ?_ ?_ ..⟩
    · split
      · dsimp only
        rw [ctxs_loadUnits, read.ctxs]
      · exact read.ctxs
    · split
      · dsimp only
        rw [pkt_loadUnits, read.pkt]
      · exact read.pkt

theorem execQueryFieldState_answers (s : State) : ∃ t, execQueryFieldState s = .next t ∧ Answers s t := by
  unfold execQueryFieldState
  dsimp only
  split <;> exact ⟨_, rfl, answers_later rfl rfl ..⟩

/-- An FWLOAD whose image cannot be read yet holds the mailbox and tries again in a later cycle. -/
theorem imageAgain_waits (s : State) (ev : Instr) :
    (s.imageAgain ev).hport.mbBusy = true ∧ (s.imageAgain ev).hport.loading = some s.pkt ∧
      (s.imageAgain ev).hport.mbNext = s.hport.mbNext ∧ ∃ d ∈ (s.imageAgain ev).agenda, d.ev = ev ∧ s.now < d.at_ :=
  ⟨rfl, rfl, rfl, _, .head _, rfl, Nat.lt_add_right _ (Nat.lt_succ_self _)⟩

theorem execFwloadDevice_of_waits {s : State} (hl : s.hport.loading = none) (hw : s.imageWaits = true) :
    execFwloadDevice s = .next (s.imageAgain .fwloadDevice) := by
  simp only [execFwloadDevice, fwPkt_of_not_loading hl, hw, if_true]

theorem execFwloadBankUnit_of_waits {s : State} (hl : s.hport.loading = none) (hw : s.imageWaits = true)
    (hb : s.unitsBusy = false) : execFwloadBankUnit s = .next (s.imageAgain .fwloadBankUnit) := by
  simp only [execFwloadBankUnit, fwPkt_of_not_loading hl, hw, hb, Bool.and_false, Bool.false_eq_true, if_false, if_true]

theorem execQueryFieldState_of_dead {s : State} (hi : s.pkt.num 4 1 = 2) (hd : s.live (s.pkt.num 6 2) = false) :
    ∃ t, execQueryFieldState s = .next t ∧ t.hport.mbNext = some (0, leBytes 2 (s.pkt.num 6 2) ++ [0xFF, 0, 0], s.pkt) := by
  have dead : s.fieldAnswer (s.pkt.num 6 2) = leBytes 2 (s.pkt.num 6 2) ++ [0xFF, 0, 0] := by
    simp only [State.fieldAnswer, hd, Bool.not_false, if_true]
  simp only [execQueryFieldState, if_pos hi, dead]
  exact ⟨_, rfl, rfl⟩

theorem execQueryFieldState_of_badItem {s : State} (hi : s.pkt.num 4 1 ≠ 2) :
    ∃ t, execQueryFieldState s = .next t ∧ t.hport.mbNext = some (5, [], s.pkt) := by
  simp only [execQueryFieldState, if_neg hi]
  exact ⟨_, rfl, rfl⟩

/-- Offering held calls moves no register of the host port. -/
theorem hport_offerCalls (s : State) (pch : Nat) : (s.offerCalls pch).hport = s.hport :=
  List.foldlRecOn (motive := fun t : State => t.hport = s.hport) _ _ rfl (fun _ h _ _ => h)

theorem hport_offerAll (l : List Nat) (s : State) : (l.foldl (fun s k => s.offerCalls k) s).hport = s.hport :=
  List.foldlRecOn (motive := fun t : State => t.hport = s.hport) _ _ rfl (fun t h k _ => (hport_offerCalls t k).trans h)

/-- The mailbox shows its answer: DONE, RESULT and the answer's bytes. -/
def shown (s : State) (r : Nat) (bs : List Byte) : State :=
  { s with hport := { s.hport with
    mbBusy := false, mbDone := true, sets := (0x170000, 1) :: s.hport.sets, mbResult := r, mbLen := bs.length, mbBuf := bs,
    mbNext := none } }

theorem execMailboxDone_eq {s : State} {r : Nat} {bs : List Byte} {y : Pkt} (h : s.hport.mbNext = some (r, bs, y)) :
    execMailboxDone s =
      let t := ((shown s r bs).msix 3).packetDone y.q y.id
      .next ((t.seqrs.map (·.1)).foldl (fun s k => s.offerCalls k) t) := by
  simp only [execMailboxDone, h]
  rfl

theorem execMailboxDone_of_answer {s : State} {r : Nat} {bs : List Byte} {y : Pkt} (h : s.hport.mbNext = some (r, bs, y)) :
    ∃ t, execMailboxDone s = .next t ∧ t.hport.mbBusy = false ∧ t.hport.mbDone = true ∧
      t.hport.mbResult = r ∧ t.hport.mbLen = bs.length ∧ t.hport.mbBuf = bs ∧ t.hport.mbNext = none := by
  refine ⟨_, execMailboxDone_eq h, ?_⟩
  obtain ⟨_, _, _, _, _, done⟩ := packetDone_frame ((shown s r bs).msix 3) y.q y.id
  obtain ⟨_, _, told⟩ := msix_frame (shown s r bs) 3
  rw [hport_offerAll, done, told]
  exact ⟨rfl, rfl, rfl, rfl, rfl, rfl⟩

/-! ## The staging aperture (R128) -/

theorem ctxs_setStgerr (s : State) (b : Bool) : (s.setStgerr b).ctxs = s.ctxs := by cases b <;> rfl
theorem now_setStgerr (s : State) (b : Bool) : (s.setStgerr b).now = s.now := by cases b <;> rfl
theorem hostRead_setStgerr (s : State) (b : Bool) : (s.setStgerr b).hostRead = s.hostRead := by cases b <;> rfl
theorem stgWait_setStgerr (s : State) (b : Bool) : (s.setStgerr b).hport.stgWait = s.hport.stgWait := by cases b <;> rfl
theorem stgerr_setStgerr (s : State) (b : Bool) : (s.setStgerr b).hport.stgerr = (s.hport.stgerr || b) := by
  cases b
  · exact (Bool.or_false _).symm
  · exact (Bool.or_true _).symm

theorem stageLines_addrs_length (s : State) (write : Bool) (o n : Nat) : (s.stageLines write o n).1.length = n := by
  simp [State.stageLines]

theorem execStagingRead_of_free {off : BitVec 30} {len : Nat} {s : State}
    (h : (s.stageLines false off.toNat len).2.2.linesBusy (s.stageLines false off.toNat len).2.1 false = false) :
    ∃ t, execStagingRead off len s = .next t ∧ t.hostRead.length = len ∧ t.ctxs = s.ctxs ∧
      t.hport.stgerr = (s.hport.stgerr || (s.stageLines false off.toNat len).2.1.failed) := by
  have read := onlyMemory_stageLines s false off.toNat len
  simp only [execStagingRead, h, Bool.false_eq_true, if_false]
  refine ⟨_, rfl, ?_, ?_, ?_⟩
  · rw [hostRead_setStgerr, List.length_map, stageLines_addrs_length]
  · rw [ctxs_setStgerr]
    exact read.ctxs
  · rw [stgerr_setStgerr]
    exact congrArg (fun h : HostPort => h.stgerr || _) read.hport

/-- With no earlier bytes waiting, BAR4's bytes are translated as their addresses are; those of a line whose translation waits are
kept, and the others written. -/
theorem stageWrite_of_none_waiting {s : State} {o : Nat} {bytes : List Byte} (hw : s.hport.stgWait = []) :
    let l := s.stageLines true o bytes.length
    let waits (c : Nat × Byte) : Bool := l.2.1.get (c.1 / 128) == .busy
    s.stageWrite (l.1.zip bytes) =
      (State.kWrite { l.2.2 with hport := { l.2.2.hport with stgWait := (l.1.zip bytes).filter waits } } l.2.1 3 0 0
        ((l.1.zip bytes).filter (fun c => !waits c))).setStgerr l.2.1.failed := by
  intro l waits
  have addrs : (l.1.zip bytes).map Prod.fst = l.1 :=
    List.map_fst_zip (Nat.le_of_eq (stageLines_addrs_length s true o bytes.length))
  simp only [State.stageWrite, hw, List.nil_append, addrs]
  rfl

/-- A write of BAR4 with effect, of at least one byte, while no earlier one waits. -/
theorem execStagingWrite_of_accepted {off : BitVec 30} {bytes : List Byte} {s : State} (hb : s.bar0Writes = true)
    (hne : bytes ≠ []) :
    execStagingWrite off bytes s =
      let t := s.stageWrite ((s.stageLines true off.toNat bytes.length).1.zip bytes)
      .next (if t.hport.stgWait.isEmpty then t else t.at none (t.now + 1) phDevice (.stagingWrite off [])) := by
  have carries : (((List.range bytes.length).map (fun k => stagingAddr s (off.toNat + k))).zip bytes).isEmpty = false := by
    rw [List.isEmpty_eq_false_iff, ne_eq, ← List.length_eq_zero_iff, List.length_zip, List.length_map, List.length_range, Nat.min_self,
      List.length_eq_zero_iff]
    exact hne
  simp only [execStagingWrite, hb, if_true, carries, Bool.false_and, Bool.false_eq_true, if_false]
  rfl

/-- What waits after a write of BAR4 are the bytes whose lines' translations wait. -/
theorem stgWait_stageWrite {s : State} {o : Nat} {bytes : List Byte} (hw : s.hport.stgWait = []) :
    (s.stageWrite ((s.stageLines true o bytes.length).1.zip bytes)).hport.stgWait =
      ((s.stageLines true o bytes.length).1.zip bytes).filter
        (fun c => (s.stageLines true o bytes.length).2.1.get (c.1 / 128) == .busy) := by
  rw [stageWrite_of_none_waiting hw, stgWait_setStgerr, (onlyMemory_kWrite ..).hport]

theorem ctxs_stageWrite {s : State} {o : Nat} {bytes : List Byte} (hw : s.hport.stgWait = []) :
    (s.stageWrite ((s.stageLines true o bytes.length).1.zip bytes)).ctxs = s.ctxs := by
  rw [stageWrite_of_none_waiting hw, ctxs_setStgerr, (onlyMemory_kWrite ..).ctxs]
  exact (onlyMemory_stageLines ..).ctxs

theorem now_stageWrite {s : State} {o : Nat} {bytes : List Byte} (hw : s.hport.stgWait = []) :
    (s.stageWrite ((s.stageLines true o bytes.length).1.zip bytes)).now = s.now := by
  rw [stageWrite_of_none_waiting hw, now_setStgerr, (onlyMemory_kWrite ..).now]
  exact (onlyMemory_stageLines ..).now

theorem execStagingWrite_of_free {off : BitVec 30} {bytes : List Byte} {s : State} (hb : s.bar0Writes = true)
    (hne : bytes ≠ []) (hw : s.hport.stgWait = [])
    (hf : ∀ a ∈ (s.stageLines true off.toNat bytes.length).1, (s.stageLines true off.toNat bytes.length).2.1.get (a / 128) ≠ .busy) :
    let l := s.stageLines true off.toNat bytes.length
    execStagingWrite off bytes s = .next ((l.2.2.kWrite l.2.1 3 0 0 (l.1.zip bytes)).setStgerr l.2.1.failed) := by
  intro l
  have free : ∀ c ∈ l.1.zip bytes, (l.2.1.get (c.1 / 128) == Xl.busy) = false := fun c hc =>
    beq_eq_false_iff_ne.mpr (hf c.1 (List.of_mem_zip hc).1)
  have none_wait : (l.1.zip bytes).filter (fun c => l.2.1.get (c.1 / 128) == .busy) = [] :=
    List.filter_eq_nil_iff.mpr (fun c hc => by rw [free c hc]; exact Bool.false_ne_true)
  have all_go : (l.1.zip bytes).filter (fun c => !(l.2.1.get (c.1 / 128) == .busy)) = l.1.zip bytes :=
    List.filter_eq_self.mpr (fun c hc => by rw [free c hc]; rfl)
  have still : l.2.2.hport.stgWait = [] := (congrArg HostPort.stgWait (onlyMemory_stageLines ..).hport).trans hw
  have written : s.stageWrite (l.1.zip bytes) = (l.2.2.kWrite l.2.1 3 0 0 (l.1.zip bytes)).setStgerr l.2.1.failed := by
    rw [stageWrite_of_none_waiting hw]
    dsimp only
    rw [none_wait, all_go, ← still]
  rw [execStagingWrite_of_accepted hb hne, ← written]
  dsimp only
  rw [stgWait_stageWrite hw, none_wait]
  rfl

theorem execStagingWrite_of_busy {off : BitVec 30} {bytes : List Byte} {s : State} (hb : s.bar0Writes = true)
    (hw : s.hport.stgWait = [])
    (hf : ∃ a ∈ (s.stageLines true off.toNat bytes.length).1, (s.stageLines true off.toNat bytes.length).2.1.get (a / 128) = .busy) :
    let l := s.stageLines true off.toNat bytes.length
    ∃ t, execStagingWrite off bytes s = .next t ∧ t.ctxs = s.ctxs ∧
      t.hport.stgWait = (l.1.zip bytes).filter (fun c => l.2.1.get (c.1 / 128) == .busy) ∧
      ∃ d ∈ t.agenda, d.ev = .stagingWrite off [] ∧ d.at_ = s.now + 1 := by
  intro l
  obtain ⟨a, ha, busy⟩ := hf
  have hlen : l.1.length = bytes.length := stageLines_addrs_length ..
  have hne : bytes ≠ [] := fun h => by
    rw [List.length_eq_zero_iff.mp (hlen.trans (congrArg List.length h))] at ha
    exact List.not_mem_nil ha
  obtain ⟨c, hc, rfl⟩ : ∃ c ∈ l.1.zip bytes, c.1 = a := by
    rw [← List.map_fst_zip (Nat.le_of_eq hlen), List.mem_map] at ha
    exact ha
  have waits : ((l.1.zip bytes).filter (fun c => l.2.1.get (c.1 / 128) == .busy)).isEmpty = false :=
    List.isEmpty_eq_false_iff.mpr (List.ne_nil_of_mem (List.mem_filter.mpr ⟨hc, beq_iff_eq.mpr busy⟩))
  refine ⟨_, execStagingWrite_of_accepted hb hne, ?_⟩
  rw [stgWait_stageWrite hw, waits, now_stageWrite hw]
  exact ⟨ctxs_stageWrite hw, stgWait_stageWrite hw, _, .head _, rfl, rfl⟩

/-! ## The statement -/

/-- R133 to R135: each FWLOAD that need not wait, and each QUERY, is answered. -/
theorem mailboxPackets_answer (s : State) :
    ∀ i ∈ [Instr.fwloadDevice, .fwloadBankUnit, .queryDevice, .queryAttestation, .queryFieldState],
      (i = .fwloadDevice ∨ i = .fwloadBankUnit → s.hport.loading = none ∧ s.imageWaits = false) →
      ∃ t, exec i s = .next t ∧ Answers s t := by
  simp only [List.forall_mem_cons]
  refine ⟨fun h => ?_, fun h => ?_, fun _ => ?_, fun _ => ?_, fun _ => ?_, fun _ h => absurd h List.not_mem_nil⟩
  · exact execFwloadDevice_answers (h (.inl trivial)).1 (h (.inl trivial)).2
  · exact execFwloadBankUnit_answers (h (.inr trivial)).1 (h (.inr trivial)).2
  · exact ⟨_, rfl, answers_later rfl rfl ..⟩
  · exact ⟨_, rfl, answers_later rfl rfl ..⟩
  · exact execQueryFieldState_answers s

/-- R128, R133: each FWLOAD whose image cannot be read yet waits, unless it is one for bank units that are busy. -/
theorem fwloads_wait {s : State} (hl : s.hport.loading = none) (hw : s.imageWaits = true) :
    ∀ i ∈ [Instr.fwloadDevice, .fwloadBankUnit], (i = .fwloadBankUnit → s.unitsBusy = false) →
      ∃ t, exec i s = .next t ∧ t.hport.mbBusy = true ∧ t.hport.loading = some s.pkt ∧ t.hport.mbNext = s.hport.mbNext ∧
        ∃ d ∈ t.agenda, d.ev = i ∧ s.now < d.at_ := by
  simp only [List.forall_mem_cons]
  refine ⟨fun _ => ?_, fun h => ?_, fun _ h => absurd h List.not_mem_nil⟩
  · exact ⟨_, execFwloadDevice_of_waits hl hw, imageAgain_waits ..⟩
  · exact ⟨_, execFwloadBankUnit_of_waits hl hw (h trivial), imageAgain_waits ..⟩

/-- Settles O49: each clause is the lemma above about the packet or the access that it names. -/
theorem packetsAndStaging : Obligations.PacketsAndStaging := by
  unfold Obligations.PacketsAndStaging
  intro q id remote off len bytes s p x
  refine ⟨fun a ha => ?completes, execPacketStart_of_none, fun a => execPacketStart_of_some, execEventSetWrite_eq s,
    execEventSetAdd_eq s, rfl, fun a => execEventWaitMet_of_one, fun a => execFencePacket_of_one, execPair_of_ungrouped,
    execCopy_queues s, execCopyComplete_of_gone, fun c => execCopyComplete_of_finished, mailboxPackets_answer s, fwloads_wait,
    fun hl hb => ?busy, execQueryFieldState_of_dead, fun hi => execQueryFieldState_of_badItem (Nat.ne_of_gt hi),
    fun r bs y => execMailboxDone_of_answer, fun l hl => ?read, fun l hl => ?write⟩
  case completes =>
    exact ⟨started_packetDone ha, ctxs_packetDone .., fields_packetDone .., out_packetDone_of_quiet ha, msix_mem_out_packetDone ha⟩
  case busy => exact ⟨_, execFwloadBankUnit_of_busy hl hb, rfl, rfl, rfl⟩
  case read =>
    subst hl
    exact execStagingRead_of_free
  case write =>
    subst hl
    exact ⟨execStagingWrite_of_free, execStagingWrite_of_busy⟩

end Sys2Proof.Machine.HostPackets
end
